-- ==== Sys2Proof/Word.lean ====
section
/-! DEFINITION. The word types of the Clock-Domain Kernel and its named sets: bytes, 16-bit counters, 32-bit
cycle values and the value NEVER (00_scope.md R9, R14, R15), the two interrupt lines (10_state.md R26), the two
ports (10_state.md R44), the two countdown channels, the four time-of-day fields (10_state.md R42) and the sixteen
register names of a chip (10_state.md R30). -/

namespace Sys2Proof

/-- A byte register or a byte operand (20_memory.md R62). -/
abbrev Byte := BitVec 8

/-- A 16-bit live counter or reload latch (10_state.md R31, R32). -/
abbrev Count := BitVec 16

/-- A stored cycle value, W = 32 bits (00_scope.md R9, R15). -/
abbrev Cycle := BitVec 32

/-- The command word (30_encoding.md R80). -/
abbrev CmdWord := BitVec 48

/-- `NEVER` as a number: 2^W - 1, the value no cycle value may reach (00_scope.md R9, R15). -/
abbrev neverNat : Nat := 0xFFFFFFFF

/-- `NEVER` as it stands in a register (00_scope.md R9, R15). -/
abbrev never : Cycle := 0xFFFFFFFF#32

/-- The two interrupt lines (10_state.md R26, R27). -/
inductive Line where
  | maskable
  | urgent
deriving DecidableEq, Repr

/-- The two ports of a chip (10_state.md R44). -/
inductive PortId where
  | a
  | b
deriving DecidableEq, Repr

/-- The two countdown channels of a chip (10_state.md R31). -/
inductive Channel where
  | A
  | B
deriving DecidableEq, Repr

/-- The half of a 16-bit latch that a byte write replaces (43_chip_timers.md R190). -/
inductive Half where
  | lo
  | hi
deriving DecidableEq, Repr

/-- The four fields of the time-of-day clock, index 0 to 3 (10_state.md R42, 45_chip_tod.md R240). -/
inductive TodField where
  | tenths
  | seconds
  | minutes
  | hours
deriving DecidableEq, Repr

/-- The sixteen byte registers of a chip, in index order 0 to 15 (10_state.md R30). -/
inductive Reg where
  | pra | prb | ddra | ddrb
  | talo | tahi | tblo | tbhi
  | tod10 | todsec | todmin | todhr
  | sdr | icr | cra | crb
deriving DecidableEq, Repr

end Sys2Proof
end

