-- ==== Sys2Proof/Config.lean ====
section
/-! DEFINITION. The parameters of the model (00_scope.md R9), their constraints, the reference configuration
(00_scope.md R10), and the values the spec leaves free (70_reset_and_hazards.md R313). The parameters are fixed for
one machine: they are arguments of the model, carried in State and written by no step (notes/assumptions/1.md). -/

namespace Sys2Proof

/-- The open parameters of 00_scope.md R9, one field each, under the spec's names. -/
structure Config where
  /-- `HIGH_WATER`: the guard rebases when `clk` exceeds it. -/
  highWater : Nat
  /-- `SAFE_BASE`: the value of `clk` after a rebase. -/
  safeBase : Nat
  /-- `NCHIP`: the number of timer/interrupt chips. -/
  nchip : Nat
  /-- `N_ALARMS`: the number of alarm slots. -/
  nAlarms : Nat
  /-- `N_SOURCES`: the number of interrupt source bits. -/
  nSources : Nat
  /-- `SRC_LINE[s]`: the line each source drives. -/
  srcLine : List Line
  /-- `READ_WINS[k]`: chip k applies the same-cycle read-wins rule. -/
  readWins : List Bool
  /-- `CYCLES_PER_SECOND`: the domain's notional clock rate. -/
  cyclesPerSecond : Nat
  /-- `SR_EARLY`: the half-bits-remaining value at which shift completion is raised early. -/
  srEarly : Option Nat
  /-- `HAS_SNAPSHOT`: the annex 46_snapshot.md is present. -/
  hasSnapshot : Bool
  /-- `SNAP_MAJOR`: first version byte of a snapshot. -/
  snapMajor : Byte
  /-- `SNAP_MINOR`: second version byte of a snapshot. -/
  snapMinor : Byte
  /-- `SNAP_RDI_BIAS`: bias of the read-clock byte. -/
  snapRdiBias : Nat
  /-- `SNAP_RDI_MAX`: cap of the read-clock byte. -/
  snapRdiMax : Nat
deriving DecidableEq, Repr

/-- `TOD_PERIOD = CYCLES_PER_SECOND div 10` (00_scope.md R9, 45_chip_tod.md R242). -/
def Config.todPeriod (c : Config) : Nat := c.cyclesPerSecond / 10

/-- The constraints that 00_scope.md R9 puts on the parameters, and `TOD_PERIOD < NEVER` of
70_reset_and_hazards.md R310. -/
structure Config.Wf (c : Config) : Prop where
  safeBase_lt : c.safeBase < c.highWater
  highWater_lt : c.highWater < neverNat
  nchip_le : c.nchip ≤ 16
  slots_ge : 3 * c.nchip ≤ c.nAlarms
  slots_le : c.nAlarms ≤ 256
  sources_ge : c.nchip ≤ c.nSources
  sources_le : c.nSources ≤ 256
  srcLine_length : c.srcLine.length = c.nSources
  readWins_length : c.readWins.length = c.nchip
  cyclesPerSecond_ge : 10 ≤ c.cyclesPerSecond
  todPeriod_lt : c.todPeriod < neverNat
  srEarly_range : ∀ t ∈ c.srEarly, 1 ≤ t ∧ t ≤ 15
  rdiBias_ge : 1 ≤ c.snapRdiBias
  rdi_fits : c.snapRdiBias + c.snapRdiMax ≤ 255

/-- The reference configuration of 00_scope.md R10: test inputs chosen by the spec, used for `State.reset` only
(DESIGN CHOICE, notes/assumptions/1.md). -/
def Config.reference : Config where
  highWater := 1000000000
  safeBase := 1000000
  nchip := 1
  nAlarms := 4
  nSources := 2
  srcLine := [.maskable, .urgent]
  readWins := [true]
  cyclesPerSecond := 1000000
  srEarly := none
  hasSnapshot := true
  snapMajor := 1
  snapMinor := 0
  snapRdiBias := 128
  snapRdiMax := 120

/-- The n-th free draw of a reload latch at a chip reset: "any 16-bit value" (70_reset_and_hazards.md R312, R313).
Nothing constrains it (notes/assumptions/3.md). -/
opaque Config.freeLatch : Nat → Count

/-- The RESP of a DISPATCH whose callback count does not fit 32 bits, for which the spec states no value
(30_encoding.md R81, notes/assumptions/10.md). Nothing constrains it. -/
opaque Config.freeWideCount : Nat → BitVec 32

end Sys2Proof
end

