-- ==== Sys2Proof/Syntax.lean ====
section
/-! DEFINITION. The operations of the Clock-Domain Kernel: one constructor for each row of spec/opcode_table.json
(30_encoding.md R84, R85). Operands are the fields each operation uses; fields it ignores (30_encoding.md R82) are
not in the syntax. Chip, slot and source numbers are numbers, bounded by `Instr.WellFormed`; cycles and bytes are
words. -/

namespace Sys2Proof

/-- An operation. `k` is a chip number (SEL[7:4]), `a` a slot and `s` a source number (SEL), `v` a byte (DATA[7:0]). -/
inductive Instr where
  /-- 70_reset_and_hazards.md R310 -/
  | domainReset
  /-- 70_reset_and_hazards.md R311 -/
  | chipReset (k : Nat)
  /-- 40_counter_guard.md R100 -/
  | clkAdvance (n : BitVec 32)
  /-- 40_counter_guard.md R101 -/
  | clkRead
  /-- 40_counter_guard.md R103 -/
  | guardTick
  /-- 41_alarm_scheduler.md R122 -/
  | alarmSet (a : Nat) (target : Cycle)
  /-- 41_alarm_scheduler.md R124 -/
  | alarmUnset (a : Nat)
  /-- 41_alarm_scheduler.md R126 -/
  | alarmNext
  /-- 41_alarm_scheduler.md R127 -/
  | alarmRead (a : Nat)
  /-- 41_alarm_scheduler.md R128 -/
  | dispatch
  /-- 42_interrupt_aggregator.md R144 -/
  | irqAssert (s : Nat) (at_ : Cycle)
  /-- 42_interrupt_aggregator.md R145 -/
  | irqDeassert (s : Nat) (at_ : Cycle)
  /-- 42_interrupt_aggregator.md R146 -/
  | irqQuery (l : Line) (at_ : Cycle)
  /-- 42_interrupt_aggregator.md R148 -/
  | irqCpumask (m : Bool)
  /-- 42_interrupt_aggregator.md R147 -/
  | irqStamp (l : Line)
  /-- 44_chip_icr_sdr_ports.md R220 -/
  | chipReadPra (k : Nat)
  /-- 44_chip_icr_sdr_ports.md R222 -/
  | chipReadPrb (k : Nat)
  /-- 44_chip_icr_sdr_ports.md R224 -/
  | chipReadDdra (k : Nat)
  /-- 44_chip_icr_sdr_ports.md R227 -/
  | chipReadDdrb (k : Nat)
  /-- 43_chip_timers.md R186 -/
  | chipReadTalo (k : Nat)
  /-- 43_chip_timers.md R187 -/
  | chipReadTahi (k : Nat)
  /-- 43_chip_timers.md R188 -/
  | chipReadTblo (k : Nat)
  /-- 43_chip_timers.md R189 -/
  | chipReadTbhi (k : Nat)
  /-- 45_chip_tod.md R246 -/
  | chipReadTod10 (k : Nat)
  /-- 45_chip_tod.md R247 -/
  | chipReadTodsec (k : Nat)
  /-- 45_chip_tod.md R248 -/
  | chipReadTodmin (k : Nat)
  /-- 45_chip_tod.md R249 -/
  | chipReadTodhr (k : Nat)
  /-- 44_chip_icr_sdr_ports.md R216 -/
  | chipReadSdr (k : Nat)
  /-- 44_chip_icr_sdr_ports.md R211 -/
  | chipReadIcr (k : Nat)
  /-- 43_chip_timers.md R196 -/
  | chipReadCra (k : Nat)
  /-- 43_chip_timers.md R197 -/
  | chipReadCrb (k : Nat)
  /-- 44_chip_icr_sdr_ports.md R221 -/
  | chipWritePra (k : Nat) (v : Byte)
  /-- 44_chip_icr_sdr_ports.md R223 -/
  | chipWritePrb (k : Nat) (v : Byte)
  /-- 44_chip_icr_sdr_ports.md R225 -/
  | chipWriteDdra (k : Nat) (v : Byte)
  /-- 44_chip_icr_sdr_ports.md R228 -/
  | chipWriteDdrb (k : Nat) (v : Byte)
  /-- 43_chip_timers.md R192 -/
  | chipWriteTalo (k : Nat) (v : Byte)
  /-- 43_chip_timers.md R193 -/
  | chipWriteTahi (k : Nat) (v : Byte)
  /-- 43_chip_timers.md R194 -/
  | chipWriteTblo (k : Nat) (v : Byte)
  /-- 43_chip_timers.md R195 -/
  | chipWriteTbhi (k : Nat) (v : Byte)
  /-- 45_chip_tod.md R250 -/
  | chipWriteTod10 (k : Nat) (v : Byte)
  /-- 45_chip_tod.md R251 -/
  | chipWriteTodsec (k : Nat) (v : Byte)
  /-- 45_chip_tod.md R252 -/
  | chipWriteTodmin (k : Nat) (v : Byte)
  /-- 45_chip_tod.md R253 -/
  | chipWriteTodhr (k : Nat) (v : Byte)
  /-- 44_chip_icr_sdr_ports.md R217 -/
  | chipWriteSdr (k : Nat) (v : Byte)
  /-- 44_chip_icr_sdr_ports.md R213 -/
  | chipWriteIcr (k : Nat) (v : Byte)
  /-- 43_chip_timers.md R198 -/
  | chipWriteCra (k : Nat) (v : Byte)
  /-- 43_chip_timers.md R199 -/
  | chipWriteCrb (k : Nat) (v : Byte)
  /-- 44_chip_icr_sdr_ports.md R219 -/
  | chipPeek (k : Nat) (r : Reg)
  /-- 43_chip_timers.md R200 -/
  | chipUpdate (k : Nat) (cycle : Cycle)
  /-- 44_chip_icr_sdr_ports.md R229 -/
  | portIn (k : Nat) (p : PortId) (v : Byte)
  /-- 44_chip_icr_sdr_ports.md R230 -/
  | portOut (k : Nat) (p : PortId)
  /-- 43_chip_timers.md R201 -/
  | extPulse (k : Nat)
  /-- 46_snapshot.md R262; the payload leaves beside the response (30_encoding.md R83) -/
  | snapSave (k : Nat)
  /-- 46_snapshot.md R266; the payload is presented beside the command word (30_encoding.md R83) -/
  | snapRestore (k : Nat)
deriving DecidableEq, Repr

end Sys2Proof
end

