-- ==== Sys2Proof/WellFormed.lean ====
section
/-! DEFINITION. Which operations can be written in a command word: a chip number fits its 4-bit field, a slot or
source number its 8-bit field (30_encoding.md R80, R82). Every other operand is a word of its field's width by type.
Whether a number names something that exists is no matter of form: that is `BadSelector`, checked when the operation
runs (60_exceptions.md R282). -/

namespace Sys2Proof

/-- A chip number fits `SEL[7:4]` (30_encoding.md R82). -/
abbrev chipFits (k : Nat) : Prop := k < 16

/-- A slot or source number fits `SEL` (30_encoding.md R80). -/
abbrev selFits (n : Nat) : Prop := n < 256

/-- The operands of `i` fit the fields of the command word (30_encoding.md R80, R82). -/
def Instr.wellFormed (i : Instr) : Bool :=
  match i with
  | .domainReset => true
  | .chipReset k => decide (chipFits k)
  | .clkAdvance _ => true
  | .clkRead => true
  | .guardTick => true
  | .alarmSet a _ => decide (selFits a)
  | .alarmUnset a => decide (selFits a)
  | .alarmNext => true
  | .alarmRead a => decide (selFits a)
  | .dispatch => true
  | .irqAssert s _ => decide (selFits s)
  | .irqDeassert s _ => decide (selFits s)
  | .irqQuery _ _ => true
  | .irqCpumask _ => true
  | .irqStamp _ => true
  | .chipReadPra k => decide (chipFits k)
  | .chipReadPrb k => decide (chipFits k)
  | .chipReadDdra k => decide (chipFits k)
  | .chipReadDdrb k => decide (chipFits k)
  | .chipReadTalo k => decide (chipFits k)
  | .chipReadTahi k => decide (chipFits k)
  | .chipReadTblo k => decide (chipFits k)
  | .chipReadTbhi k => decide (chipFits k)
  | .chipReadTod10 k => decide (chipFits k)
  | .chipReadTodsec k => decide (chipFits k)
  | .chipReadTodmin k => decide (chipFits k)
  | .chipReadTodhr k => decide (chipFits k)
  | .chipReadSdr k => decide (chipFits k)
  | .chipReadIcr k => decide (chipFits k)
  | .chipReadCra k => decide (chipFits k)
  | .chipReadCrb k => decide (chipFits k)
  | .chipWritePra k _ => decide (chipFits k)
  | .chipWritePrb k _ => decide (chipFits k)
  | .chipWriteDdra k _ => decide (chipFits k)
  | .chipWriteDdrb k _ => decide (chipFits k)
  | .chipWriteTalo k _ => decide (chipFits k)
  | .chipWriteTahi k _ => decide (chipFits k)
  | .chipWriteTblo k _ => decide (chipFits k)
  | .chipWriteTbhi k _ => decide (chipFits k)
  | .chipWriteTod10 k _ => decide (chipFits k)
  | .chipWriteTodsec k _ => decide (chipFits k)
  | .chipWriteTodmin k _ => decide (chipFits k)
  | .chipWriteTodhr k _ => decide (chipFits k)
  | .chipWriteSdr k _ => decide (chipFits k)
  | .chipWriteIcr k _ => decide (chipFits k)
  | .chipWriteCra k _ => decide (chipFits k)
  | .chipWriteCrb k _ => decide (chipFits k)
  | .chipPeek k _ => decide (chipFits k)
  | .chipUpdate k _ => decide (chipFits k)
  | .portIn k _ _ => decide (chipFits k)
  | .portOut k _ => decide (chipFits k)
  | .extPulse k => decide (chipFits k)
  | .snapSave k => decide (chipFits k)
  | .snapRestore k => decide (chipFits k)

/-- `i` is well-formed: `Instr.wellFormed` answers true. -/
abbrev Instr.WellFormed (i : Instr) : Prop := i.wellFormed = true

end Sys2Proof
end

