-- ==== Sys2Proof/Decode.lean ====
section
/-! DEFINITION. The operation encoding (30_encoding.md): the fields of the 48-bit command word, the decoder, total on
every word and rejecting by name, the encoder, and the bits of a word that an operation uses. -/

namespace Sys2Proof

/-! ### The fields of a command word (30_encoding.md R80, R82) -/

/-- `OP = cmd[47:40]`. -/
def opField (w : CmdWord) : BitVec 8 := w.extractLsb' 40 8

/-- `SEL = cmd[39:32]`. -/
def selField (w : CmdWord) : BitVec 8 := w.extractLsb' 32 8

/-- `DATA = cmd[31:0]`. -/
def dataField (w : CmdWord) : BitVec 32 := w.extractLsb' 0 32

/-- A slot or source number: the whole of `SEL`. -/
def selNumber (w : CmdWord) : Nat := (selField w).toNat

/-- A chip number: `SEL[7:4]`. -/
def chipNumber (w : CmdWord) : Nat := ((selField w).extractLsb' 4 4).toNat

/-- A register index: `SEL[3:0]`. -/
def regIndex (w : CmdWord) : BitVec 4 := (selField w).extractLsb' 0 4

/-- A port, line or mask selector: `SEL[0]`. -/
def selBit (w : CmdWord) : Bool := (selField w).getLsbD 0

/-- A byte operand: `DATA[7:0]`; `DATA[31:8]` is ignored. -/
def dataByte (w : CmdWord) : Byte := (dataField w).extractLsb' 0 8

/-- The line a selector bit names: 0 `MASKABLE`, 1 `URGENT` (30_encoding.md R80). -/
def Line.ofBit (b : Bool) : Line := if b then .urgent else .maskable

/-- The selector bit that names a line. -/
def Line.bit (l : Line) : Bool :=
  match l with
  | .maskable => false
  | .urgent => true

/-- The port a selector bit names: 0 A, 1 B (30_encoding.md R80). -/
def PortId.ofBit (b : Bool) : PortId := if b then .b else .a

/-- The selector bit that names a port. -/
def PortId.bit (p : PortId) : Bool :=
  match p with
  | .a => false
  | .b => true

/-- The register at an index (10_state.md R30). -/
def Reg.ofIndex (i : BitVec 4) : Reg :=
  match i.toNat with
  | 0 => .pra
  | 1 => .prb
  | 2 => .ddra
  | 3 => .ddrb
  | 4 => .talo
  | 5 => .tahi
  | 6 => .tblo
  | 7 => .tbhi
  | 8 => .tod10
  | 9 => .todsec
  | 10 => .todmin
  | 11 => .todhr
  | 12 => .sdr
  | 13 => .icr
  | 14 => .cra
  | _ => .crb

/-- The index of a register (10_state.md R30). -/
def Reg.index (r : Reg) : BitVec 4 :=
  match r with
  | .pra => 0#4
  | .prb => 1#4
  | .ddra => 2#4
  | .ddrb => 3#4
  | .talo => 4#4
  | .tahi => 5#4
  | .tblo => 6#4
  | .tbhi => 7#4
  | .tod10 => 8#4
  | .todsec => 9#4
  | .todmin => 10#4
  | .todhr => 11#4
  | .sdr => 12#4
  | .icr => 13#4
  | .cra => 14#4
  | .crb => 15#4

/-! ### Decoding -/

/-- Why a word is no operation (30_encoding.md R87). -/
inductive DecodeError where
  /-- `OP` is not an opcode of the table: the operation port raises `IllegalOp` (60_exceptions.md R285). -/
  | illegalOp (op : BitVec 8)
deriving DecidableEq, Repr

/-- `CHIP_READ k, reg` is one instruction for each register (30_encoding.md R85). -/
def chipReadOf (k : Nat) (r : Reg) : Instr :=
  match r with
  | .pra => .chipReadPra k
  | .prb => .chipReadPrb k
  | .ddra => .chipReadDdra k
  | .ddrb => .chipReadDdrb k
  | .talo => .chipReadTalo k
  | .tahi => .chipReadTahi k
  | .tblo => .chipReadTblo k
  | .tbhi => .chipReadTbhi k
  | .tod10 => .chipReadTod10 k
  | .todsec => .chipReadTodsec k
  | .todmin => .chipReadTodmin k
  | .todhr => .chipReadTodhr k
  | .sdr => .chipReadSdr k
  | .icr => .chipReadIcr k
  | .cra => .chipReadCra k
  | .crb => .chipReadCrb k

/-- `CHIP_WRITE k, reg, v` is one instruction for each register (30_encoding.md R85). -/
def chipWriteOf (k : Nat) (r : Reg) (v : Byte) : Instr :=
  match r with
  | .pra => .chipWritePra k v
  | .prb => .chipWritePrb k v
  | .ddra => .chipWriteDdra k v
  | .ddrb => .chipWriteDdrb k v
  | .talo => .chipWriteTalo k v
  | .tahi => .chipWriteTahi k v
  | .tblo => .chipWriteTblo k v
  | .tbhi => .chipWriteTbhi k v
  | .tod10 => .chipWriteTod10 k v
  | .todsec => .chipWriteTodsec k v
  | .todmin => .chipWriteTodmin k v
  | .todhr => .chipWriteTodhr k v
  | .sdr => .chipWriteSdr k v
  | .icr => .chipWriteIcr k v
  | .cra => .chipWriteCra k v
  | .crb => .chipWriteCrb k v

/-- The operation of a command word, by the opcode map of 30_encoding.md R84. It looks at `OP` for whether there is
one (60_exceptions.md R285); whether the snapshot opcodes are present (`HAS_SNAPSHOT`) is checked when they run, in
the place of 60_exceptions.md R287 (notes/assumptions/12.md). -/
def decode (w : CmdWord) : Except DecodeError Instr :=
  match (opField w).toNat with
  | 0x01 => .ok .domainReset
  | 0x02 => .ok (.chipReset (chipNumber w))
  | 0x10 => .ok (.clkAdvance (dataField w))
  | 0x11 => .ok .clkRead
  | 0x12 => .ok .guardTick
  | 0x20 => .ok (.alarmSet (selNumber w) (dataField w))
  | 0x21 => .ok (.alarmUnset (selNumber w))
  | 0x22 => .ok .alarmNext
  | 0x23 => .ok (.alarmRead (selNumber w))
  | 0x24 => .ok .dispatch
  | 0x30 => .ok (.irqAssert (selNumber w) (dataField w))
  | 0x31 => .ok (.irqDeassert (selNumber w) (dataField w))
  | 0x32 => .ok (.irqQuery (Line.ofBit (selBit w)) (dataField w))
  | 0x33 => .ok (.irqCpumask (selBit w))
  | 0x34 => .ok (.irqStamp (Line.ofBit (selBit w)))
  | 0x40 => .ok (chipReadOf (chipNumber w) (Reg.ofIndex (regIndex w)))
  | 0x41 => .ok (chipWriteOf (chipNumber w) (Reg.ofIndex (regIndex w)) (dataByte w))
  | 0x42 => .ok (.chipPeek (chipNumber w) (Reg.ofIndex (regIndex w)))
  | 0x43 => .ok (.chipUpdate (chipNumber w) (dataField w))
  | 0x44 => .ok (.portIn (chipNumber w) (PortId.ofBit (selBit w)) (dataByte w))
  | 0x45 => .ok (.portOut (chipNumber w) (PortId.ofBit (selBit w)))
  | 0x46 => .ok (.extPulse (chipNumber w))
  | 0x50 => .ok (.snapSave (chipNumber w))
  | 0x51 => .ok (.snapRestore (chipNumber w))
  | _ => .error (.illegalOp (opField w))

/-- The opcodes of the table (30_encoding.md R84). -/
def opcodes : List Nat :=
  [0x01, 0x02, 0x10, 0x11, 0x12, 0x20, 0x21, 0x22, 0x23, 0x24, 0x30, 0x31, 0x32, 0x33, 0x34,
   0x40, 0x41, 0x42, 0x43, 0x44, 0x45, 0x46, 0x50, 0x51]

/-- The operation in a word whose bits 47..0 are the low `nbits` bits of `w`, every bit above them 0. A word of more
than 48 bits is no command word (30_encoding.md R80: "every operation has this one length"). -/
def decodeTableWord (nbits w : Nat) : Option Instr :=
  if nbits ≤ 48 then
    match decode (BitVec.ofNat 48 (w % 2 ^ nbits)) with
    | .ok i => some i
    | .error _ => none
  else none

/-! ### Encoding -/

/-- `OP ++ SEL ++ DATA` (30_encoding.md R80). -/
def cmdWord (op sel : BitVec 8) (data : BitVec 32) : CmdWord := op ++ sel ++ data

/-- `SEL` naming a chip and a register: `k[3:0] ++ reg[3:0]` (30_encoding.md R80). -/
def selChipReg (k : Nat) (i : BitVec 4) : BitVec 8 := BitVec.ofNat 4 k ++ i

/-- `SEL` naming a chip alone; the low half is unused and assembled as zero (30_encoding.md R90). -/
def selChip (k : Nat) : BitVec 8 := selChipReg k 0

/-- `SEL` naming a chip and a port: `k[3:0] ++ 000 ++ p` (30_encoding.md R80). -/
def selChipPort (k : Nat) (p : PortId) : BitVec 8 := selChipReg k (0#3 ++ BitVec.ofBool p.bit)

/-- `SEL` holding one selector bit: `0000000 ++ b` (30_encoding.md R80). -/
def selOfBit (b : Bool) : BitVec 8 := 0#7 ++ BitVec.ofBool b

/-- `SEL` holding a slot or source number (30_encoding.md R80). -/
def selOfNumber (n : Nat) : BitVec 8 := BitVec.ofNat 8 n

/-- `DATA` holding a byte; the unused high part is assembled as zero (30_encoding.md R90). -/
def dataOfByte (v : Byte) : BitVec 32 := 0#24 ++ v

/-- `CHIP_READ k, reg` as a word (30_encoding.md R84). -/
def encodeRead (k : Nat) (r : Reg) : CmdWord := cmdWord 0x40 (selChipReg k r.index) 0

/-- `CHIP_WRITE k, reg, v` as a word (30_encoding.md R84). -/
def encodeWrite (k : Nat) (r : Reg) (v : Byte) : CmdWord := cmdWord 0x41 (selChipReg k r.index) (dataOfByte v)

/-- The command word of an operation, unused fields zero (30_encoding.md R84, R90). -/
def encode (i : Instr) : CmdWord :=
  match i with
  | .domainReset => cmdWord 0x01 0 0
  | .chipReset k => cmdWord 0x02 (selChip k) 0
  | .clkAdvance n => cmdWord 0x10 0 n
  | .clkRead => cmdWord 0x11 0 0
  | .guardTick => cmdWord 0x12 0 0
  | .alarmSet a target => cmdWord 0x20 (selOfNumber a) target
  | .alarmUnset a => cmdWord 0x21 (selOfNumber a) 0
  | .alarmNext => cmdWord 0x22 0 0
  | .alarmRead a => cmdWord 0x23 (selOfNumber a) 0
  | .dispatch => cmdWord 0x24 0 0
  | .irqAssert s at_ => cmdWord 0x30 (selOfNumber s) at_
  | .irqDeassert s at_ => cmdWord 0x31 (selOfNumber s) at_
  | .irqQuery l at_ => cmdWord 0x32 (selOfBit l.bit) at_
  | .irqCpumask m => cmdWord 0x33 (selOfBit m) 0
  | .irqStamp l => cmdWord 0x34 (selOfBit l.bit) 0
  | .chipReadPra k => encodeRead k .pra
  | .chipReadPrb k => encodeRead k .prb
  | .chipReadDdra k => encodeRead k .ddra
  | .chipReadDdrb k => encodeRead k .ddrb
  | .chipReadTalo k => encodeRead k .talo
  | .chipReadTahi k => encodeRead k .tahi
  | .chipReadTblo k => encodeRead k .tblo
  | .chipReadTbhi k => encodeRead k .tbhi
  | .chipReadTod10 k => encodeRead k .tod10
  | .chipReadTodsec k => encodeRead k .todsec
  | .chipReadTodmin k => encodeRead k .todmin
  | .chipReadTodhr k => encodeRead k .todhr
  | .chipReadSdr k => encodeRead k .sdr
  | .chipReadIcr k => encodeRead k .icr
  | .chipReadCra k => encodeRead k .cra
  | .chipReadCrb k => encodeRead k .crb
  | .chipWritePra k v => encodeWrite k .pra v
  | .chipWritePrb k v => encodeWrite k .prb v
  | .chipWriteDdra k v => encodeWrite k .ddra v
  | .chipWriteDdrb k v => encodeWrite k .ddrb v
  | .chipWriteTalo k v => encodeWrite k .talo v
  | .chipWriteTahi k v => encodeWrite k .tahi v
  | .chipWriteTblo k v => encodeWrite k .tblo v
  | .chipWriteTbhi k v => encodeWrite k .tbhi v
  | .chipWriteTod10 k v => encodeWrite k .tod10 v
  | .chipWriteTodsec k v => encodeWrite k .todsec v
  | .chipWriteTodmin k v => encodeWrite k .todmin v
  | .chipWriteTodhr k v => encodeWrite k .todhr v
  | .chipWriteSdr k v => encodeWrite k .sdr v
  | .chipWriteIcr k v => encodeWrite k .icr v
  | .chipWriteCra k v => encodeWrite k .cra v
  | .chipWriteCrb k v => encodeWrite k .crb v
  | .chipPeek k r => cmdWord 0x42 (selChipReg k r.index) 0
  | .chipUpdate k cycle => cmdWord 0x43 (selChip k) cycle
  | .portIn k p v => cmdWord 0x44 (selChipPort k p) (dataOfByte v)
  | .portOut k p => cmdWord 0x45 (selChipPort k p) 0
  | .extPulse k => cmdWord 0x46 (selChip k) 0
  | .snapSave k => cmdWord 0x50 (selChip k) 0
  | .snapRestore k => cmdWord 0x51 (selChip k) 0

/-- The bits of the command word an operation uses; the others are ignored (30_encoding.md R82, R84: the bits not
written `x` in the table's `SEL` and `DATA` columns). -/
def usedBits (i : Instr) : CmdWord :=
  match i with
  | .domainReset => 0xFF0000000000
  | .chipReset _ => 0xFFF000000000
  | .clkAdvance _ => 0xFF00FFFFFFFF
  | .clkRead => 0xFF0000000000
  | .guardTick => 0xFF0000000000
  | .alarmSet _ _ => 0xFFFFFFFFFFFF
  | .alarmUnset _ => 0xFFFF00000000
  | .alarmNext => 0xFF0000000000
  | .alarmRead _ => 0xFFFF00000000
  | .dispatch => 0xFF0000000000
  | .irqAssert _ _ => 0xFFFFFFFFFFFF
  | .irqDeassert _ _ => 0xFFFFFFFFFFFF
  | .irqQuery _ _ => 0xFF01FFFFFFFF
  | .irqCpumask _ => 0xFF0100000000
  | .irqStamp _ => 0xFF0100000000
  | .chipReadPra _ => 0xFFFF00000000
  | .chipReadPrb _ => 0xFFFF00000000
  | .chipReadDdra _ => 0xFFFF00000000
  | .chipReadDdrb _ => 0xFFFF00000000
  | .chipReadTalo _ => 0xFFFF00000000
  | .chipReadTahi _ => 0xFFFF00000000
  | .chipReadTblo _ => 0xFFFF00000000
  | .chipReadTbhi _ => 0xFFFF00000000
  | .chipReadTod10 _ => 0xFFFF00000000
  | .chipReadTodsec _ => 0xFFFF00000000
  | .chipReadTodmin _ => 0xFFFF00000000
  | .chipReadTodhr _ => 0xFFFF00000000
  | .chipReadSdr _ => 0xFFFF00000000
  | .chipReadIcr _ => 0xFFFF00000000
  | .chipReadCra _ => 0xFFFF00000000
  | .chipReadCrb _ => 0xFFFF00000000
  | .chipWritePra _ _ => 0xFFFF000000FF
  | .chipWritePrb _ _ => 0xFFFF000000FF
  | .chipWriteDdra _ _ => 0xFFFF000000FF
  | .chipWriteDdrb _ _ => 0xFFFF000000FF
  | .chipWriteTalo _ _ => 0xFFFF000000FF
  | .chipWriteTahi _ _ => 0xFFFF000000FF
  | .chipWriteTblo _ _ => 0xFFFF000000FF
  | .chipWriteTbhi _ _ => 0xFFFF000000FF
  | .chipWriteTod10 _ _ => 0xFFFF000000FF
  | .chipWriteTodsec _ _ => 0xFFFF000000FF
  | .chipWriteTodmin _ _ => 0xFFFF000000FF
  | .chipWriteTodhr _ _ => 0xFFFF000000FF
  | .chipWriteSdr _ _ => 0xFFFF000000FF
  | .chipWriteIcr _ _ => 0xFFFF000000FF
  | .chipWriteCra _ _ => 0xFFFF000000FF
  | .chipWriteCrb _ _ => 0xFFFF000000FF
  | .chipPeek _ _ => 0xFFFF00000000
  | .chipUpdate _ _ => 0xFFF0FFFFFFFF
  | .portIn _ _ _ => 0xFFF1000000FF
  | .portOut _ _ => 0xFFF100000000
  | .extPulse _ => 0xFFF000000000
  | .snapSave _ => 0xFFF000000000
  | .snapRestore _ => 0xFFF000000000

end Sys2Proof
end

