-- ==== Sys2Proof/Machine/State.lean ====
section
/-! DEFINITION. The state of one clock domain (10_state.md), as plain data, and the state right after reset
(70_reset_and_hazards.md R310). INVENTORY.md lists every field with its rule and its reset value. -/

namespace Sys2Proof.Machine

/-- The sticky fault codes of the CDK (60_exceptions.md R281). `State.fault = none` is code 0. Raising one is a NEXT
state of the model (60_exceptions.md R280), so these are state and not reasons for a step to stop. -/
inductive FaultCode where
  /-- Code 1: `OP` is not an opcode of the table (60_exceptions.md R285). -/
  | illegalOp
  /-- Code 2: a chip, slot or source number out of range or owned by a chip (60_exceptions.md R282). -/
  | badSelector
  /-- Code 3: a cycle value `>= NEVER` would be stored (60_exceptions.md R283). -/
  | clockOverflow
  /-- Code 4: a cycle operand in the future, or a reconciliation before the last one (60_exceptions.md R284). -/
  | schedInconsistency
deriving DecidableEq, Repr

/-- The reasons a step can stop the machine. THERE IS NONE: "there is no undefined behaviour, no stuck state and no
hang" (60_exceptions.md R288), and the CDK's own faults are states (60_exceptions.md R280). No one raises one; safe.
-/
inductive Fault where
deriving DecidableEq, Repr

/-- The reasons an operation can have no meaning in the model. -/
inductive Refusal where
  /-- The operation has no meaning in the model yet. Raised by an arm of `exec` alone, for an operation not written
  yet; every operation is written, so no arm raises it. Safe: nothing is claimed of such an operation. -/
  | notModelled (mnemonic : String)
deriving DecidableEq, Repr

/-- One countdown channel (10_state.md R31 to R34). -/
structure Chan where
  /-- `latch[x]`, the reload latch (R31). -/
  latch : Count
  /-- `cnt[x]`, the stored part of the live counter (R32). -/
  cnt : Count
  /-- `U[x]`, the cached next underflow cycle (R33). -/
  u : Cycle
  /-- `toggle[x]`, the toggle output bit (R34). -/
  toggle : Bool
deriving DecidableEq, Repr

/-- A group of the four time-of-day bytes, index 0 to 3 (10_state.md R42, 45_chip_tod.md R240). -/
structure Tod where
  tenths : Byte
  seconds : Byte
  minutes : Byte
  hours : Byte
deriving DecidableEq, Repr

/-- One timer/interrupt chip (10_state.md R31 to R45). -/
structure Chip where
  /-- Channel A. -/
  chanA : Chan
  /-- Channel B. -/
  chanB : Chan
  /-- `cra` (R35). -/
  cra : Byte
  /-- `crb` (R36). -/
  crb : Byte
  /-- `mask`, the interrupt-enable mask (R38). -/
  mask : Byte
  /-- `flags`, the stored part of the flag register (R39). -/
  flags : Byte
  /-- `last_read` (R40). -/
  lastRead : Option Cycle
  /-- `sdr` (R41). -/
  sdr : Byte
  /-- `sr_bits`, the half-bit countdown (R41). -/
  srBits : BitVec 5
  /-- `tod` (R42). -/
  tod : Tod
  /-- `todalarm` (R42). -/
  todAlarm : Tod
  /-- `todlatch` (R42). -/
  todLatch : Tod
  /-- `tod_stopped` (R43). -/
  todStopped : Bool
  /-- `tod_latched` (R43). -/
  todLatched : Bool
  /-- `pra` (R44). -/
  pra : Byte
  /-- `prb` (R44). -/
  prb : Byte
  /-- `ddra` (R44). -/
  ddra : Byte
  /-- `ddrb` (R44). -/
  ddrb : Byte
  /-- `in_a` (R44). -/
  inA : Byte
  /-- `in_b` (R44). -/
  inB : Byte
  /-- `rc`, the cycle of the last reconciliation (R45). -/
  rc : Cycle
deriving DecidableEq, Repr

/-- One slot of the alarm table (10_state.md R24). -/
structure Alarm where
  /-- `armed[a]`. -/
  armed : Bool
  /-- `target[a]`; `NEVER` while disarmed. -/
  target : Cycle
deriving DecidableEq, Repr

/-- An output event (00_scope.md R17). -/
inductive Event where
  /-- `fired(a, overrun)`: an external slot's alarm fired (41_alarm_scheduler.md R129). -/
  | fired (a overrun : Nat)
  /-- `rebase(sub)`: external listeners subtract `sub` (40_counter_guard.md R103). -/
  | rebase (sub : Nat)
deriving DecidableEq, Repr

/-- One operation as the driver presents it: the command word, and the payload beside it (30_encoding.md R80, R83). -/
structure Presented where
  word : CmdWord
  payload : List Byte
deriving DecidableEq, Repr

/-- The state of one clock domain. Plain data. -/
structure State where
  /-- The parameters (00_scope.md R9): arguments of the model, written by no step (notes/assumptions/1.md). -/
  cfg : Config
  /-- `clk`, the Cycle Counter (10_state.md R22). -/
  clk : Cycle
  /-- The alarm table (10_state.md R24), slot `a` at index `a`. -/
  alarms : List Alarm
  /-- `src[s]`, the source bits (10_state.md R26), source `s` at index `s`. -/
  src : List Bool
  /-- `line_clk[MASKABLE]` (10_state.md R27). -/
  lineClkMaskable : Cycle
  /-- `line_clk[URGENT]` (10_state.md R27). -/
  lineClkUrgent : Cycle
  /-- `cpu_masked` (10_state.md R28). -/
  cpuMasked : Bool
  /-- The chips (10_state.md R30 to R45), chip `k` at index `k`. -/
  chips : List Chip
  /-- `fault` (10_state.md R46); `none` is code 0. -/
  fault : Option FaultCode
  /-- The operations presented and not yet taken, the next one first (the model's own, notes/assumptions/4.md). -/
  port : List Presented
  /-- `PAYLOAD_IN` of the operation being run (30_encoding.md R83, notes/assumptions/4.md). -/
  payloadIn : List Byte
  /-- `STATUS` of the last operation (30_encoding.md R81, an output, notes/assumptions/6.md). -/
  status : Byte
  /-- `RESP` of the last operation (30_encoding.md R81, an output, notes/assumptions/6.md). -/
  resp : BitVec 32
  /-- `PAYLOAD_OUT` of the last operation (30_encoding.md R83, an output, notes/assumptions/6.md). -/
  payloadOut : List Byte
  /-- The output events so far, oldest first (00_scope.md R17, an output, notes/assumptions/6.md). -/
  events : List Event
  /-- How many free values the resets have drawn (the model's own, notes/assumptions/3.md). -/
  draws : Nat
deriving DecidableEq, Repr

/-- A group of four zero bytes. -/
def Tod.zero : Tod := ⟨0, 0, 0, 0⟩

/-- A chip right after a domain reset (10_state.md R48 at cycle 0), its latches as drawn. -/
def Chip.atReset (latchA latchB : Count) : Chip where
  chanA := ⟨latchA, 0, never, false⟩
  chanB := ⟨latchB, 0, never, false⟩
  cra := 0x00
  crb := 0x00
  mask := 0x00
  flags := 0x00
  lastRead := none
  sdr := 0x00
  srBits := 0
  tod := Tod.zero
  todAlarm := Tod.zero
  todLatch := Tod.zero
  todStopped := false
  todLatched := false
  pra := 0x00
  prb := 0x00
  ddra := 0x00
  ddrb := 0x00
  inA := 0xFF
  inB := 0xFF
  rc := 0

/-- Slot `a` right after a domain reset: the time-of-day alarm of each chip is armed one period on, every other slot
is disarmed (70_reset_and_hazards.md R310, R312). -/
def Alarm.atReset (cfg : Config) (a : Nat) : Alarm :=
  if a < 3 * cfg.nchip ∧ a % 3 = 2 then ⟨true, BitVec.ofNat 32 cfg.todPeriod⟩ else ⟨false, never⟩

/-- The state after `DOMAIN_RESET` under a configuration, the latch of channel A of chip `k` drawn as `draw (2 * k)`
and that of channel B as `draw (2 * k + 1)` (70_reset_and_hazards.md R310, R312, R313). -/
def State.resetOf (cfg : Config) (draw : Nat → Count) : State where
  cfg := cfg
  clk := 0
  alarms := (List.range cfg.nAlarms).map (Alarm.atReset cfg)
  src := List.replicate cfg.nSources false
  lineClkMaskable := 0
  lineClkUrgent := 0
  cpuMasked := false
  chips := (List.range cfg.nchip).map fun k => Chip.atReset (draw (2 * k)) (draw (2 * k + 1))
  fault := none
  port := []
  payloadIn := []
  status := 0
  resp := 0
  payloadOut := []
  events := []
  draws := 0

/-- The machine right after reset, in the reference configuration (notes/assumptions/1.md) and with the latch draws
(0, 0) (DESIGN CHOICE, notes/assumptions/2.md). -/
def State.reset : State := State.resetOf Config.reference fun _ => 0

end Sys2Proof.Machine
end

