-- ==== Sys2Proof/Machine/Ops.lean ====
section
/-! DEFINITION. The named operations over the state: reading and writing a chip, storing a cycle value
(00_scope.md R15), the alarm table (41_alarm_scheduler.md R120), the interrupt lines (42_interrupt_aggregator.md),
the response (30_encoding.md R81), raising a fault (60_exceptions.md R280) and the resets, one of which is the return
from the fault state (70_reset_and_hazards.md R310, R312), and the command port (30_encoding.md R80, R83). -/

namespace Sys2Proof.Machine

/-! ### Chips and channels -/

/-- What a chip number no chip has reads as. No operation gets as far: the selector check comes first
(60_exceptions.md R287; notes/assumptions/14.md). -/
def Chip.absent : Chip := Chip.atReset 0 0

/-- Chip `k`. -/
def State.chip (s : State) (k : Nat) : Chip := s.chips.getD k Chip.absent

/-- Chip `k` replaced. -/
def State.setChip (s : State) (k : Nat) (c : Chip) : State := { s with chips := s.chips.set k c }

/-- Channel `x` of a chip. -/
def Chip.chan (c : Chip) (x : Channel) : Chan :=
  match x with
  | .A => c.chanA
  | .B => c.chanB

/-- Channel `x` of a chip replaced. -/
def Chip.setChan (c : Chip) (x : Channel) (ch : Chan) : Chip :=
  match x with
  | .A => { c with chanA := ch }
  | .B => { c with chanB := ch }

/-- `Ctl(x)`: `cra` for A, `crb` for B (43_chip_timers.md). -/
def Chip.ctl (c : Chip) (x : Channel) : Byte :=
  match x with
  | .A => c.cra
  | .B => c.crb

/-- `Ctl(x)` replaced. -/
def Chip.setCtl (c : Chip) (x : Channel) (v : Byte) : Chip :=
  match x with
  | .A => { c with cra := v }
  | .B => { c with crb := v }

/-- Channel `x` of chip `k` replaced. -/
def State.setChan (s : State) (k : Nat) (x : Channel) (ch : Chan) : State :=
  s.setChip k ((s.chip k).setChan x ch)

/-- `Ctl(x)` of chip `k` replaced. -/
def State.setCtl (s : State) (k : Nat) (x : Channel) (v : Byte) : State :=
  s.setChip k ((s.chip k).setCtl x v)

/-- Run `f` for `k = 0, 1, ..., n - 1` in this order, stopping at the first fault: the pseudocode's `for`. -/
def forUpTo (f : Nat → State → Except FaultCode State) : Nat → State → Except FaultCode State
  | 0, s => .ok s
  | n + 1, s => do
    let s' ← forUpTo f n s
    f n s'

/-! ### Cycle values -/

/-- `CycleStore(v)`: a computed cycle value is stored only below `NEVER` (00_scope.md R15, 40_counter_guard.md R109). -/
def cycleStore (v : Nat) : Except FaultCode Cycle :=
  if v ≥ neverNat then .error .clockOverflow else .ok (BitVec.ofNat 32 v)

/-! ### The alarm table -/

/-- What a slot number no slot has reads as: disarmed. No operation gets as far (notes/assumptions/14.md). -/
def Alarm.absent : Alarm := ⟨false, never⟩

/-- Slot `a`. -/
def State.alarm (s : State) (a : Nat) : Alarm := s.alarms.getD a Alarm.absent

/-- Slot `a` replaced. -/
def State.setAlarm (s : State) (a : Nat) (al : Alarm) : State := { s with alarms := s.alarms.set a al }

/-- `AL_TA(k)`, `AL_TB(k)`: the underflow alarm of channel `x` of chip `k` (10_state.md R25). -/
def slotOf (k : Nat) (x : Channel) : Nat :=
  match x with
  | .A => 3 * k
  | .B => 3 * k + 1

/-- `AL_TOD(k)`: the time-of-day tick alarm of chip `k` (10_state.md R25). -/
def todSlot (k : Nat) : Nat := 3 * k + 2

/-- `AlarmSet(a, t)` (41_alarm_scheduler.md R120). -/
def alarmSet (a t : Nat) (s : State) : Except FaultCode State := do
  let v ← cycleStore t
  .ok (s.setAlarm a ⟨true, v⟩)

/-- `AlarmUnset(a)` (41_alarm_scheduler.md R120). -/
def alarmUnset (a : Nat) (s : State) : State := s.setAlarm a ⟨false, never⟩

/-- A slot is due when it is armed and its target is not after the cycle (41_alarm_scheduler.md R128). -/
def Alarm.due (al : Alarm) (clk : Cycle) : Bool := al.armed && decide (al.target ≤ clk)

/-- The earliest armed target, or `NEVER` (41_alarm_scheduler.md R126). -/
def State.nextDue (s : State) : Cycle :=
  s.alarms.foldl (fun m al => if al.armed && decide (al.target < m) then al.target else m) never

/-! ### The interrupt lines -/

/-- `SRC_LINE[n]` (10_state.md R26). -/
def State.lineOf (s : State) (n : Nat) : Line := s.cfg.srcLine.getD n .maskable

/-- `src[n]`. -/
def State.source (s : State) (n : Nat) : Bool := s.src.getD n false

/-- `Level(L)`: some source on the line is asserted (42_interrupt_aggregator.md R141). Never stored. -/
def State.level (s : State) (l : Line) : Bool :=
  (List.range s.cfg.nSources).any fun n => s.source n && decide (s.lineOf n = l)

/-- The output wire `irq_out` (00_scope.md R18). -/
def State.irqOut (s : State) : Bool := s.level .maskable

/-- The output wire `nmi_out` (00_scope.md R18). -/
def State.nmiOut (s : State) : Bool := s.level .urgent

/-- `line_clk[L]` (10_state.md R27). -/
def State.lineClk (s : State) (l : Line) : Cycle :=
  match l with
  | .maskable => s.lineClkMaskable
  | .urgent => s.lineClkUrgent

/-- `line_clk[L]` replaced. -/
def State.setLineClk (s : State) (l : Line) (c : Cycle) : State :=
  match l with
  | .maskable => { s with lineClkMaskable := c }
  | .urgent => { s with lineClkUrgent := c }

/-- `src[n]` replaced. -/
def State.setSource (s : State) (n : Nat) (b : Bool) : State := { s with src := s.src.set n b }

/-- The line of source `n` rises when `src[n]` becomes `b`: the edge is the line's, not the bit's
(42_interrupt_aggregator.md R143). -/
def State.rises (s : State) (n : Nat) (b : Bool) : Bool :=
  !(s.level (s.lineOf n)) && (s.setSource n b).level (s.lineOf n)

/-- `AggSet(n, b, at)`: the source bit is set, a rising edge of its line is stamped
(42_interrupt_aggregator.md R143; the stamp is a cycle value already, notes/assumptions/9.md). -/
def aggSet (n : Nat) (b : Bool) (at_ : Cycle) (s : State) : State :=
  if s.rises n b then (s.setSource n b).setLineClk (s.lineOf n) at_ else s.setSource n b

/-- What `AggSet(n, b, at)` returns: "newly asserted", on a rising edge of a line the processor has not masked
(42_interrupt_aggregator.md R143). -/
def newlyAsserted (n : Nat) (b : Bool) (s : State) : Bool :=
  s.rises n b && !(decide (s.lineOf n = .maskable) && s.cpuMasked)

/-! ### Output events -/

/-- `emit ev` (00_scope.md R16, R17). -/
def emit (e : Event) (s : State) : State := { s with events := s.events ++ [e] }

/-! ### Resets -/

/-- The fields of a chip after a reset at cycle `c`, its latches as drawn (70_reset_and_hazards.md R312). -/
def Chip.blank (latchA latchB : Count) (c : Cycle) : Chip where
  chanA := ⟨latchA, 0, never, false⟩
  chanB := ⟨latchB, 0, never, false⟩
  cra := 0x00
  crb := 0x00
  mask := 0x00
  flags := 0x00
  lastRead := none
  sdr := 0x00
  srBits := 0
  tod := ⟨0, 0, 0, 0⟩
  todAlarm := ⟨0, 0, 0, 0⟩
  todLatch := ⟨0, 0, 0, 0⟩
  todStopped := false
  todLatched := false
  pra := 0
  prb := 0
  ddra := 0
  ddrb := 0
  inA := 0xFF
  inB := 0xFF
  rc := c

/-- The two latches of chip `k` are drawn, its other fields reset at cycle `c` (70_reset_and_hazards.md R312, R313;
notes/assumptions/3.md). -/
def blankChip (k : Nat) (c : Cycle) (s : State) : State :=
  { s with
    chips := s.chips.set k (Chip.blank (Config.freeLatch s.draws) (Config.freeLatch (s.draws + 1)) c)
    draws := s.draws + 2 }

/-- `ChipReset(k, c)` (70_reset_and_hazards.md R312). -/
def chipReset (k : Nat) (c : Cycle) (s : State) : Except FaultCode State := do
  let s ← alarmSet (todSlot k) (c.toNat + s.cfg.todPeriod)
    (alarmUnset (slotOf k .B) (alarmUnset (slotOf k .A) (blankChip k c s)))
  .ok (aggSet k false c s)

/-- The body of `DOMAIN_RESET` (70_reset_and_hazards.md R310), the only way out of the fault state
(30_encoding.md R88). It reads no field but the parameters and the model's own; the tables come out at their wired
sizes from any state. -/
def domainReset (s : State) : Except FaultCode State :=
  forUpTo (fun k => chipReset k 0) s.cfg.nchip
    { s with
      fault := none
      clk := 0
      alarms := List.replicate s.cfg.nAlarms ⟨false, never⟩
      src := List.replicate s.cfg.nSources false
      lineClkMaskable := 0
      lineClkUrgent := 0
      cpuMasked := false
      chips := List.replicate s.cfg.nchip Chip.absent }

/-! ### Responses, faults -/

/-- What an operation answers (30_encoding.md R81, R83). -/
structure Reply where
  status : Byte
  resp : BitVec 32
  payload : List Byte
deriving DecidableEq, Repr

/-- The operation completed and returns a value (30_encoding.md R81). -/
def Reply.value (v : BitVec 32) : Reply := ⟨0, v, []⟩

/-- The operation completed and returns nothing: RESP is 0 (30_encoding.md R81). -/
def Reply.nothing : Reply := Reply.value 0

/-- The operation completed and returns a byte, zero-extended (30_encoding.md R81). -/
def Reply.byte (v : Byte) : Reply := Reply.value (v.setWidth 32)

/-- The operation completed and returns a bit, zero-extended (30_encoding.md R81). -/
def Reply.bit (b : Bool) : Reply := Reply.value (if b then 1 else 0)

/-- The operation did not complete: RESP is 0 (30_encoding.md R81). -/
def Reply.failed (status : Byte) : Reply := ⟨status, 0, []⟩

/-- The number of a fault code (60_exceptions.md R281). -/
def FaultCode.code (f : FaultCode) : Byte :=
  match f with
  | .illegalOp => 1
  | .badSelector => 2
  | .clockOverflow => 3
  | .schedInconsistency => 4

/-- `STATUS` of the recoverable failure `SnapshotMalformed` (60_exceptions.md R281, R286). -/
def snapshotMalformed : Byte := 5

/-- The response leaves at the command port (30_encoding.md R81, R83). -/
def State.answer (s : State) (r : Reply) : State :=
  { s with status := r.status, resp := r.resp, payloadOut := r.payload }

/-- Raising a fault, the exception entry of the CDK: of the state before the operation only `fault` changes, and the
operation answers STATUS = code, RESP = 0 (60_exceptions.md R280, 00_scope.md R16). -/
def takeFault (f : FaultCode) (s : State) : State :=
  ({ s with fault := some f }).answer (Reply.failed f.code)

/-- An operation presented in the fault state changes nothing and answers STATUS = fault (30_encoding.md R88). -/
def refuseIn (f : FaultCode) (s : State) : State := s.answer (Reply.failed f.code)

/-- What the body of an operation makes of a state: the new state and the answer, or the fault it raises. -/
abbrev Result := Except FaultCode (State × Reply)

/-- The end of an operation that ran: its changes and its answer, or the fault it raised with every change of it
discarded (30_encoding.md R81, 60_exceptions.md R280). -/
def conclude (s : State) (r : Result) : State :=
  match r with
  | .ok (s', rep) => s'.answer rep
  | .error f => takeFault f s

/-- An operation other than `DOMAIN_RESET`: refused in the fault state, otherwise its body runs
(60_exceptions.md R287). -/
def perform (s : State) (body : State → Result) : Host.Outcome State Fault Refusal :=
  match s.fault with
  | some f => .next (refuseIn f s)
  | none => .next (conclude s (body s))

/-! ### The command port -/

/-- The next operation taken from the command port, its payload beside it; `none` when none is presented
(30_encoding.md R80, R83; notes/assumptions/4.md). -/
def fetch (s : State) : Option (CmdWord × State) :=
  match s.port with
  | [] => none
  | p :: rest => some (p.word, { s with port := rest, payloadIn := p.payload })

/-- An operation presented before every other, with an empty payload (notes/assumptions/4.md). -/
def presentFirst (w : CmdWord) (s : State) : State := { s with port := ⟨w, []⟩ :: s.port }

/-- A word that is no operation is presented: refused in the fault state, otherwise `IllegalOp`
(60_exceptions.md R285, R287). -/
def illegalWord (s : State) : Host.Outcome State Fault Refusal := perform s fun _ => .error .illegalOp

end Sys2Proof.Machine
end

