-- ==== Sys2Proof/Machine/Operands.lean ====
section
/-! DEFINITION. The operand forms of an operation and the checks on them (30_encoding.md R82, 60_exceptions.md R282,
R284): selectors of chips, slots and sources, cycle operands, the register index of a TOD access, a 16-bit latch
byte. The fields of the command word themselves are in Sys2Proof/Decode.lean. -/

namespace Sys2Proof.Machine

/-- A chip selector: out of range is `BadSelector` (20_memory.md R61, 60_exceptions.md R282). -/
def selectChip (k : Nat) (s : State) : Except FaultCode Unit :=
  if k ≥ s.cfg.nchip then .error .badSelector else .ok ()

/-- A slot selector of `ALARM_READ`: any slot of the table (41_alarm_scheduler.md R121, R127). -/
def selectSlot (a : Nat) (s : State) : Except FaultCode Unit :=
  if a ≥ s.cfg.nAlarms then .error .badSelector else .ok ()

/-- A slot selector of `ALARM_SET` and `ALARM_UNSET`: a slot no chip owns (41_alarm_scheduler.md R121). -/
def selectExternalSlot (a : Nat) (s : State) : Except FaultCode Unit :=
  if a ≥ s.cfg.nAlarms ∨ a < 3 * s.cfg.nchip then .error .badSelector else .ok ()

/-- A source selector of `IRQ_ASSERT` and `IRQ_DEASSERT`: a source no chip owns (42_interrupt_aggregator.md R142). -/
def selectExternalSource (n : Nat) (s : State) : Except FaultCode Unit :=
  if n ≥ s.cfg.nSources ∨ n < s.cfg.nchip then .error .badSelector else .ok ()

/-- A cycle operand may not lie in the future (60_exceptions.md R284, 42_interrupt_aggregator.md R144). -/
def cycleNotFuture (at_ : Cycle) (s : State) : Except FaultCode Unit :=
  if at_ > s.clk then .error .schedInconsistency else .ok ()

/-- Field `i` of a time-of-day group (45_chip_tod.md R240). -/
def Tod.get (t : Tod) (i : TodField) : Byte :=
  match i with
  | .tenths => t.tenths
  | .seconds => t.seconds
  | .minutes => t.minutes
  | .hours => t.hours

/-- Field `i` of a time-of-day group replaced (45_chip_tod.md R240). -/
def Tod.set (t : Tod) (i : TodField) (v : Byte) : Tod :=
  match i with
  | .tenths => { t with tenths := v }
  | .seconds => { t with seconds := v }
  | .minutes => { t with minutes := v }
  | .hours => { t with hours := v }

/-- `WMASK[i]`, the write masks (45_chip_tod.md R240). -/
def todMask (i : TodField) : Byte :=
  match i with
  | .tenths => 0x0F
  | .seconds => 0x7F
  | .minutes => 0x7F
  | .hours => 0x9F

/-- `lo8(v)` (00_scope.md R14). -/
def lo8 (v : Count) : Byte := v.extractLsb' 0 8

/-- `hi8(v)` (00_scope.md R14). -/
def hi8 (v : Count) : Byte := v.extractLsb' 8 8

/-- A latch with one byte replaced: the low byte by `hi8(old) ++ v`, the high byte by `v ++ lo8(old)`
(43_chip_timers.md R190, 20_memory.md R63). -/
def latchWith (old : Count) (half : Half) (v : Byte) : Count :=
  match half with
  | .lo => hi8 old ++ v
  | .hi => v ++ lo8 old

end Sys2Proof.Machine
end

