-- ==== Sys2Proof/Machine/Flags.lean ====
section
/-! DEFINITION. The flag and mask registers of a chip and its interrupt source (44_chip_icr_sdr_ports.md R210 to
R215): the flag bits, the summary bit, the byte a flag read returns, the mask write, `SetFlag` and `UpdateLine`. -/

namespace Sys2Proof.Machine

/-- `F_TA`, `F_TB`: the underflow flag of channel `x` (10_state.md R39). -/
def flagOf (x : Channel) : Byte :=
  match x with
  | .A => 0x01
  | .B => 0x02

/-- `F_ALARM` (10_state.md R39). -/
def flagAlarm : Byte := 0x04

/-- `F_SDR` (10_state.md R39). -/
def flagSdr : Byte := 0x08

/-- `Summary = ((flags & mask & 0x0F) != 0)`, computed and never latched (10_state.md R39,
44_chip_icr_sdr_ports.md R214, R215). -/
def Chip.summary (c : Chip) : Bool := decide (c.flags &&& c.mask &&& 0x0F ≠ 0)

/-- The byte a flag read returns: the flags, with bit 7 the summary (44_chip_icr_sdr_ports.md R211, R212). -/
def Chip.icrByte (c : Chip) : Byte := (c.flags &&& 0x0F) ||| (if c.summary then 0x80 else 0x00)

/-- The mask after a mask write: bit 7 selects setting or clearing the bits named in 3:0
(44_chip_icr_sdr_ports.md R213). -/
def maskWith (mask v : Byte) : Byte :=
  if v.getLsbD 7 then mask ||| (v &&& 0x0F) else mask &&& ~~~(v &&& 0x0F)

/-- `UpdateLine(e)`: the chip's source bit is made its summary (44_chip_icr_sdr_ports.md R214). -/
def updateLine (k : Nat) (e : Cycle) (s : State) : State := aggSet k (s.chip k).summary e s

/-- The read-wins rule suppresses a set at cycle `e` (44_chip_icr_sdr_ports.md R210). -/
def readWon (k : Nat) (e : Cycle) (s : State) : Bool :=
  s.cfg.readWins.getD k false && decide ((s.chip k).lastRead = some e)

/-- `SetFlag(bit, e)`, the one way a flag becomes 1 (44_chip_icr_sdr_ports.md R210). -/
def setFlag (k : Nat) (bit : Byte) (e : Cycle) (s : State) : State :=
  if readWon k e s then s
  else updateLine k e (s.setChip k { s.chip k with flags := (s.chip k).flags ||| bit })

end Sys2Proof.Machine
end

