-- ==== Sys2Proof/Machine/Timer.lean ====
section
/-! DEFINITION. The two countdown channels of a chip and its shift register's countdown (43_chip_timers.md R160 to
R190, 44_chip_icr_sdr_ports.md R218): the live counter, underflow and reconciliation, control and latch writes.
Cycles are computed as unbounded numbers and stored through `CycleStore` (00_scope.md R15); where a subtraction's
precondition is a rule's, it is truncated (notes/assumptions/19.md). -/

namespace Sys2Proof.Machine

/-- The state of a channel, a function of its control register (10_state.md R37). -/
inductive ChanState where
  | stopped
  | running
  | runningExt
  | runningCascade
deriving DecidableEq, Repr

/-- The source selector of a control byte is "system clock": `v[5] = 0` for A, `v[6:5] = 00` for B
(10_state.md R35, R36; 43_chip_timers.md R170). -/
def selectsClock (x : Channel) (v : Byte) : Bool :=
  match x with
  | .A => !v.getLsbD 5
  | .B => !v.getLsbD 5 && !v.getLsbD 6

/-- The channel state that a control byte gives (10_state.md R37). -/
def ctlState (x : Channel) (v : Byte) : ChanState :=
  if !v.getLsbD 0 then .stopped
  else
    match x with
    | .A => if v.getLsbD 5 then .runningExt else .running
    | .B => if v.getLsbD 6 then .runningCascade else if v.getLsbD 5 then .runningExt else .running

/-- `State(x)` (10_state.md R37). -/
def Chip.chanState (c : Chip) (x : Channel) : ChanState := ctlState x (c.ctl x)

/-- The one-shot bit of `Ctl(x)` (10_state.md R35, R36). -/
def Chip.oneShot (c : Chip) (x : Channel) : Bool := (c.ctl x).getLsbD 3

/-- `Live(x, c)`, the live counter of channel `x` at cycle `c` (43_chip_timers.md R161). -/
def Chip.live (ch : Chip) (x : Channel) (c : Cycle) : Count :=
  if ch.chanState x = .running then
    BitVec.ofNat 16 (min (ch.chan x).cnt.toNat ((ch.chan x).u.toNat - c.toNat))
  else (ch.chan x).cnt

/-- `Ctl(x)[0] <- 0`: the chip clears the start bit (43_chip_timers.md R163, R165). -/
def clearStart (v : Byte) : Byte := v &&& 0xFE

/-! ### Underflow -/

/-- `ShiftEvents(n, e0, P)`: `n` underflows of channel A at cycles `e0 + i*P` while shifting is enabled
(44_chip_icr_sdr_ports.md R218). -/
def shiftEvents (k n e0 P : Nat) (s : State) : State :=
  let old := (s.chip k).srBits.toNat
  if old = 0 then s
  else
    let new := old - min n old
    let s' := s.setChip k { s.chip k with srBits := BitVec.ofNat 5 new }
    match s.cfg.srEarly with
    | none => if new = 0 then setFlag k flagSdr (BitVec.ofNat 32 (e0 + (old - 1) * P)) s' else s'
    | some t =>
      if old > t ∧ new ≤ t then setFlag k flagSdr (BitVec.ofNat 32 (e0 + (old - t - 1) * P)) s' else s'

/-- A count event's decrement: a counter at 0 stays there (43_chip_timers.md R165). -/
def countDown (cnt : Count) : Count := if cnt = 0 then 0 else cnt - 1

/-- A one-shot channel that underflowed clears its start bit (43_chip_timers.md R165). -/
def stopOneShot (k : Nat) (x : Channel) (s : State) : State :=
  if (s.chip k).oneShot x then s.setCtl k x (clearStart ((s.chip k).ctl x)) else s

/-- One count event of a channel that counts events, the underflow's further effects given (43_chip_timers.md R165,
the body of its loop). -/
def countOne (underflow : State → State) (k : Nat) (x : Channel) (s : State) : State :=
  let ch := (s.chip k).chan x
  if countDown ch.cnt = 0 then
    underflow (stopOneShot k x (s.setChan k x { ch with cnt := ch.latch, toggle := !ch.toggle }))
  else s.setChan k x { ch with cnt := countDown ch.cnt }

/-- `n` count events at cycles `e, e + P, ...`, ending when the channel leaves the counting state, the effects of an
underflow at a cycle given (43_chip_timers.md R165, its loop). -/
def countLoop (underflow : Nat → State → State) (k : Nat) (x : Channel) (mode : ChanState) (P : Nat) :
    Nat → Nat → State → State
  | 0, _, s => s
  | n + 1, e, s =>
    if (s.chip k).chanState x ≠ mode then s
    else countLoop underflow k x mode P n (e + P) (countOne (underflow e) k x s)

/-- `UnderflowEffects(B, n, e0, P)`: channel B's underflows have no consequence beyond their flag
(43_chip_timers.md R164). -/
def underflowEffectsB (k e0 : Nat) (s : State) : State := setFlag k (flagOf .B) (BitVec.ofNat 32 e0) s

/-- Underflows of channel A clock the shift register while shifting is enabled (43_chip_timers.md R164). -/
def clockShift (k n e0 P : Nat) (s : State) : State :=
  if (s.chip k).cra.getLsbD 6 then shiftEvents k n e0 P s else s

/-- Underflows of channel A are counted by a cascaded channel B (43_chip_timers.md R164). -/
def cascade (k n e0 P : Nat) (s : State) : State :=
  if (s.chip k).chanState .B = .runningCascade then
    countLoop (underflowEffectsB k) k .B .runningCascade P n e0 s
  else s

/-- `UnderflowEffects(A, n, e0, P)`: the flag, the shift register, the cascade into B (43_chip_timers.md R164). -/
def underflowEffectsA (k n e0 P : Nat) (s : State) : State :=
  cascade k n e0 P (clockShift k n e0 P (setFlag k (flagOf .A) (BitVec.ofNat 32 e0) s))

/-- `UnderflowEffects(x, n, e0, P)` (43_chip_timers.md R164). -/
def underflowEffects (k : Nat) (x : Channel) (n e0 P : Nat) (s : State) : State :=
  match x with
  | .A => underflowEffectsA k n e0 P s
  | .B => underflowEffectsB k e0 s

/-- `CountEvents(x, mode, n, e0, P)` (43_chip_timers.md R165). -/
def countEvents (k : Nat) (x : Channel) (mode : ChanState) (n e0 P : Nat) (s : State) : State :=
  countLoop (fun e => underflowEffects k x 1 e 1) k x mode P n e0 s

/-! ### Reconciliation -/

/-- The number of underflows of a running channel at cycles up to `c`, its first at `e0`, its period `P`
(43_chip_timers.md R163). -/
def underflowCount (oneShot : Bool) (e0 P c : Nat) : Nat := if oneShot then 1 else 1 + (c - e0) / P

/-- `ChanCatchUp(x, c)` (43_chip_timers.md R163). -/
def chanCatchUp (k : Nat) (x : Channel) (c : Cycle) (s : State) : Except FaultCode State :=
  let chip := s.chip k
  let ch := chip.chan x
  if chip.chanState x = .running ∧ ch.u ≤ c then
    let e0 := ch.u.toNat
    let P := ch.latch.toNat + 1
    let n := underflowCount (chip.oneShot x) e0 P c.toNat
    let toggle := if n % 2 = 1 then !ch.toggle else ch.toggle
    if chip.oneShot x then
      let s := s.setCtl k x (clearStart (chip.ctl x))
      let s := alarmUnset (slotOf k x) (s.setChan k x { ch with cnt := ch.latch, u := never, toggle := toggle })
      .ok (underflowEffects k x n e0 P s)
    else do
      let u ← cycleStore (e0 + n * P)
      let s ← alarmSet (slotOf k x) u.toNat (s.setChan k x { ch with cnt := ch.latch, u := u, toggle := toggle })
      .ok (underflowEffects k x n e0 P s)
  else .ok s

/-- The last lines of `UpdateTo(k, c)`: the live values are stored, `rc <- c` (43_chip_timers.md R166). -/
def storeLive (k : Nat) (c : Cycle) (s : State) : State :=
  let chip := s.chip k
  s.setChip k { chip with
    chanA := { chip.chanA with cnt := chip.live .A c }
    chanB := { chip.chanB with cnt := chip.live .B c }
    rc := c }

/-- `UpdateTo(k, c)`, reconciliation (43_chip_timers.md R166). -/
def updateTo (k : Nat) (c : Cycle) (s : State) : Except FaultCode State :=
  if c < (s.chip k).rc then .error .schedInconsistency
  else do
    let s ← chanCatchUp k .A c s
    let s ← chanCatchUp k .B c s
    .ok (storeLive k c s)

/-! ### Control and latch writes -/

/-- `SatDec(u)` (43_chip_timers.md R170). -/
def satDec (u : Count) : Count := if u = 0 then 0 else u - 1

/-- Bit 4 of a control byte, the forced-load strobe (10_state.md R35, R36). -/
def loadStrobe (v : Byte) : Bool := v.getLsbD 4

/-- Start: the next underflow is `c + cnt + 1 + load` and the alarm is armed there (43_chip_timers.md R170, R171). -/
def startChannel (k : Nat) (x : Channel) (load : Bool) (s : State) : Except FaultCode State := do
  let ch := (s.chip k).chan x
  let cnt := if load then ch.latch else ch.cnt
  let u ← cycleStore (s.clk.toNat + cnt.toNat + 1 + load.toNat)
  alarmSet (slotOf k x) u.toNat (s.setChan k x { ch with cnt := cnt, u := u })

/-- Stop: the live counter less one, or the latch when a forced load suppresses the correction
(43_chip_timers.md R170, R172). -/
def stopChannel (k : Nat) (x : Channel) (load : Bool) (s : State) : State :=
  let ch := (s.chip k).chan x
  let cnt := if load then ch.latch else satDec ((s.chip k).live x s.clk)
  alarmUnset (slotOf k x) (s.setChan k x { ch with cnt := cnt, u := never })

/-- Forced load of a channel that stays running (43_chip_timers.md R170, R173). -/
def reloadRunning (k : Nat) (x : Channel) (s : State) : Except FaultCode State := do
  let ch := (s.chip k).chan x
  let u ← cycleStore (s.clk.toNat + ch.latch.toNat + 2)
  alarmSet (slotOf k x) u.toNat (s.setChan k x { ch with cnt := ch.latch, u := u })

/-- Forced load of a channel that counts no cycles before or after (43_chip_timers.md R170, R173). -/
def loadIdle (k : Nat) (x : Channel) (s : State) : State :=
  let ch := (s.chip k).chan x
  s.setChan k x { ch with cnt := ch.latch }

/-- The source selector and the start bit of a control byte make the channel count system-clock cycles: `new_sys` of
43_chip_timers.md R170. -/
def countsClock (x : Channel) (v : Byte) : Bool := v.getLsbD 0 && selectsClock x v

/-- The four cases of `WriteControl(x, v)`, before the byte is stored (43_chip_timers.md R170). -/
def controlEffect (k : Nat) (x : Channel) (v : Byte) (s : State) : Except FaultCode State :=
  match decide ((s.chip k).chanState x = .running), countsClock x v with
  | false, true => startChannel k x (loadStrobe v) s
  | true, false => .ok (stopChannel k x (loadStrobe v) s)
  | true, true => if loadStrobe v then reloadRunning k x s else .ok s
  | false, false => .ok (if loadStrobe v then loadIdle k x s else s)

/-- `WriteControl(x, v)` at cycle `clk`, the chip reconciled there (43_chip_timers.md R170). -/
def writeControl (k : Nat) (x : Channel) (v : Byte) (s : State) : Except FaultCode State := do
  let s ← controlEffect k x v s
  .ok (s.setCtl k x (v &&& 0xEF))

/-- `WriteLatchByte(x, half, v)` at cycle `clk`, the chip reconciled there (43_chip_timers.md R190). -/
def writeLatchByte (k : Nat) (x : Channel) (half : Half) (v : Byte) (s : State) : Except FaultCode State :=
  let ch := (s.chip k).chan x
  let new := latchWith ch.latch half v
  if (s.chip k).chanState x = .running ∧ (s.chip k).live x s.clk = ch.latch then do
    let u ← cycleStore (max (ch.u.toNat - ch.latch.toNat + new.toNat) (s.clk.toNat + 1))
    alarmSet (slotOf k x) u.toNat (s.setChan k x { ch with latch := new, cnt := new, u := u })
  else .ok (s.setChan k x { ch with latch := new })

end Sys2Proof.Machine
end

