-- ==== Sys2Proof/Machine/TodClock.lean ====
section
/-! DEFINITION. The time-of-day sub-clock (45_chip_tod.md): the increment, the tick, the read latch and the write
freeze. -/

namespace Sys2Proof.Machine

/-- `Inc60(b)`: the next byte and whether it carries (45_chip_tod.md R241). -/
def inc60 (b : Byte) : Byte × Bool :=
  let lo := (b + 1) &&& 0x0F
  if lo ≠ 10 then ((b &&& 0x70) ||| lo, false)
  else
    let hi := ((b >>> 4) + 1) &&& 0x07
    if hi ≠ 6 then (hi <<< 4, false) else (0x00, true)

/-- The hours byte one hour later: 12 to 01, 11 to 12 with the AM/PM flip, 09 to 10, else the low digit plus one
modulo 16 (45_chip_tod.md R241). -/
def incHours (h : Byte) : Byte :=
  let pm := h &&& 0x80
  let digits := h &&& 0x1F
  if digits = 0x12 then pm ||| 0x01
  else if digits = 0x11 then (pm ^^^ 0x80) ||| 0x12
  else if digits = 0x09 then pm ||| 0x10
  else pm ||| (h &&& 0x10) ||| ((h + 1) &&& 0x0F)

/-- `TodInc(t)`: one tenth of a second later (45_chip_tod.md R241). -/
def todInc (t : Tod) : Tod :=
  let ts := (t.tenths + 1) &&& 0x0F
  if ts ≠ 10 then { t with tenths := ts }
  else
    let sec := inc60 t.seconds
    if !sec.2 then { t with tenths := 0, seconds := sec.1 }
    else
      let min := inc60 t.minutes
      if !min.2 then { t with tenths := 0, seconds := sec.1, minutes := min.1 }
      else ⟨0, sec.1, min.1, incHours t.hours⟩

/-- The clock's part of a tick at cycle `T`: the increment and the compare, unless frozen (45_chip_tod.md R243,
R244). -/
def todAdvance (k : Nat) (T : Cycle) (s : State) : State :=
  if (s.chip k).todStopped then s
  else
    let s := s.setChip k { s.chip k with tod := todInc (s.chip k).tod }
    if (s.chip k).tod = (s.chip k).todAlarm then setFlag k flagAlarm T s else s

/-- `TodTick(k, T)`: one tick, re-armed one period after its own cycle; `rc` is neither read nor written
(45_chip_tod.md R243; DESIGN CHOICE against 43_chip_timers.md R200, notes/assumptions/23.md). -/
def todTick (k : Nat) (T : Cycle) (s : State) : Except FaultCode State :=
  let s := todAdvance k T s
  alarmSet (todSlot k) (T.toNat + s.cfg.todPeriod) s

/-- The group a TOD read returns from: the held copy, or the clock when none is held (45_chip_tod.md R245, R254). -/
def Chip.todView (c : Chip) : Tod := if c.todLatched then c.todLatch else c.tod

/-- `TodRead(i)`, its effect: a copy is held until tenths is read (45_chip_tod.md R245). -/
def todRead (k : Nat) (i : TodField) (s : State) : State :=
  s.setChip k { s.chip k with
    todLatch := (s.chip k).todView
    todLatched := decide (i ≠ .tenths) }

/-- `TodRead(i)`, the byte it returns (45_chip_tod.md R245). -/
def todReadByte (k : Nat) (i : TodField) (s : State) : Byte := (s.chip k).todView.get i

/-- `TodWrite(i, v)` (45_chip_tod.md R245). -/
def todWrite (k : Nat) (i : TodField) (v : Byte) (s : State) : State :=
  let c := s.chip k
  let b := v &&& todMask i
  if c.crb.getLsbD 7 then s.setChip k { c with todAlarm := c.todAlarm.set i b }
  else
    let stopped :=
      match i with
      | .hours => true
      | .tenths => false
      | _ => c.todStopped
    s.setChip k { c with tod := c.tod.set i b, todStopped := stopped }

end Sys2Proof.Machine
end

