-- ==== Sys2Proof/Machine/Scheduler.lean ====
section
/-! DEFINITION. The dispatch of due alarms (41_alarm_scheduler.md R128 to R134), and the opening of every operation on
a chip: selector check, implicit dispatch, reconciliation (41_alarm_scheduler.md R130, 60_exceptions.md R287). -/

namespace Sys2Proof.Machine

/-- The smallest due slot (41_alarm_scheduler.md R128, R131). -/
def State.firstDue (s : State) : Option Nat := s.alarms.findIdx? fun al => al.due s.clk

/-- `Fire(a, overrun)`, the callback of slot `a` by its owner (41_alarm_scheduler.md R129, 10_state.md R25). The tick
alarm's does not reconcile the chip: `rc` stays, by 45_chip_tod.md R243 and against the corner case of
43_chip_timers.md R200 (DESIGN CHOICE, notes/assumptions/23.md). -/
def fire (a overrun : Nat) (s : State) : Except FaultCode State :=
  if a < 3 * s.cfg.nchip then
    if a % 3 = 2 then todTick (a / 3) (s.alarm a).target s
    else updateTo (a / 3) s.clk s
  else .ok (emit (.fired a overrun) (alarmUnset a s))

/-- How many callbacks a slot can still need: one for each period it is late (41_alarm_scheduler.md R134). -/
def Alarm.lateness (al : Alarm) (clk : Cycle) (period : Nat) : Nat :=
  if al.due clk then (clk.toNat - al.target.toNat) / period + 1 else 0

/-- A bound on the iterations of `Dispatch()`, the measure of 41_alarm_scheduler.md R134. -/
def dispatchFuel (s : State) : Nat := (s.alarms.map fun al => al.lateness s.clk s.cfg.todPeriod).sum

/-- The loop of `Dispatch()` (41_alarm_scheduler.md R128), `n` callbacks already invoked. Where the bound of R134 runs
out with a slot still due, which only a state that breaks the invariants of 43_chip_timers.md R162 can bring about, it
raises `SchedInconsistency` (notes/assumptions/8.md). A chip with nothing due keeps its `rc` and stored counters, by R128
and against the letter of R133 (DESIGN CHOICE, notes/assumptions/22.md). -/
def dispatchLoop : Nat → Nat → State → Except FaultCode (State × Nat)
  | fuel, n, s =>
    match s.firstDue with
    | none => .ok (s, n)
    | some a =>
      match fuel with
      | 0 => .error .schedInconsistency
      | fuel + 1 => do
        let s' ← fire a (s.clk.toNat - (s.alarm a).target.toNat) s
        dispatchLoop fuel (n + 1) s'

/-- `Dispatch()`: every due alarm fires, in ascending slot order re-evaluated after every callback; with it the number
of callbacks (41_alarm_scheduler.md R128). -/
def dispatch (s : State) : Except FaultCode (State × Nat) := dispatchLoop (dispatchFuel s) 0 s

/-- The implicit dispatch, then the rest of the operation (41_alarm_scheduler.md R130). -/
def afterDispatch (s : State) (body : State → Result) : Result := do
  let (s, _) ← dispatch s
  body s

/-- An operation on chip `k`: the selector, the implicit dispatch, then the rest (60_exceptions.md R287). -/
def onChip (k : Nat) (s : State) (body : State → Result) : Result := do
  selectChip k s
  afterDispatch s body

/-- A register access of chip `k`: as `onChip`, with the chip reconciled at `clk` before the rule of the register
(44_chip_icr_sdr_ports.md R231, R232; 20_memory.md R67). -/
def accessChip (k : Nat) (s : State) (body : State → Result) : Result :=
  onChip k s fun s => do
    let s ← updateTo k s.clk s
    body s

/-- A register read that has no effect of its own: the chip is accessed and a byte of it returned. -/
def readChip (k : Nat) (value : State → Byte) (s : State) : Result :=
  accessChip k s fun s => .ok (s, .byte (value s))

/-- A register write that cannot fault: the chip is accessed and changed, nothing is returned. -/
def writeChip (k : Nat) (effect : State → State) (s : State) : Result :=
  accessChip k s fun s => .ok (effect s, .nothing)

/-- A register write that can fault: the chip is accessed and changed, nothing is returned. -/
def writeChipE (k : Nat) (effect : State → Except FaultCode State) (s : State) : Result :=
  accessChip k s fun s => do
    let s ← effect s
    .ok (s, .nothing)

end Sys2Proof.Machine
end

