-- ==== Sys2Proof/Machine/AlarmOps.lean ====
section
/-! DEFINITION. The alarm scheduler's operations: `ALARM_SET`, `ALARM_UNSET`, `ALARM_NEXT`, `ALARM_READ`, `DISPATCH`
(41_alarm_scheduler.md). -/

namespace Sys2Proof.Machine

/-- `ALARM_SET a, target`: it arms and fires nothing (41_alarm_scheduler.md R122, R123). -/
def execAlarmSet (a : Nat) (target : Cycle) (s : State) : Host.Outcome State Fault Refusal :=
  perform s fun s => do
    selectExternalSlot a s
    let s ← alarmSet a target.toNat s
    .ok (s, .nothing)

/-- `ALARM_UNSET a` (41_alarm_scheduler.md R124). -/
def execAlarmUnset (a : Nat) (s : State) : Host.Outcome State Fault Refusal :=
  perform s fun s => do
    selectExternalSlot a s
    .ok (alarmUnset a s, .nothing)

/-- `ALARM_NEXT` (41_alarm_scheduler.md R126). -/
def execAlarmNext (s : State) : Host.Outcome State Fault Refusal :=
  perform s fun s => .ok (s, .value s.nextDue)

/-- `ALARM_READ a` (41_alarm_scheduler.md R127). -/
def execAlarmRead (a : Nat) (s : State) : Host.Outcome State Fault Refusal :=
  perform s fun s => do
    selectSlot a s
    .ok (s, .value (s.alarm a).target)

/-- A callback count as a response word; one that needs more than 32 bits has no stated value
(30_encoding.md R81, notes/assumptions/10.md). -/
def countWord (n : Nat) : BitVec 32 := if n < 2 ^ 32 then BitVec.ofNat 32 n else Config.freeWideCount n

/-- `DISPATCH` (41_alarm_scheduler.md R128). -/
def execDispatch (s : State) : Host.Outcome State Fault Refusal :=
  perform s fun s => do
    let (s, n) ← dispatch s
    .ok (s, .value (countWord n))

end Sys2Proof.Machine
end

