-- ==== Sys2Proof/Machine/Ports.lean ====
section
/-! DEFINITION. The port bytes of a chip (44_chip_icr_sdr_ports.md R226), functions of its state. -/

namespace Sys2Proof.Machine

/-- `Mux(v)`: the toggle bits override pins 6 and 7 of port B when their `PBON` is set
(44_chip_icr_sdr_ports.md R226). -/
def Chip.mux (c : Chip) (v : Byte) : Byte :=
  let v := if c.cra.getLsbD 1 then (v &&& 0xBF) ||| (if c.chanA.toggle then 0x40 else 0) else v
  if c.crb.getLsbD 1 then (v &&& 0x7F) ||| (if c.chanB.toggle then 0x80 else 0) else v

/-- `PortOut(k, p)`: a pin not driven reads as 1 (44_chip_icr_sdr_ports.md R226). -/
def Chip.portOut (c : Chip) (p : PortId) : Byte :=
  match p with
  | .a => c.pra ||| ~~~c.ddra
  | .b => c.mux (c.prb ||| ~~~c.ddrb)

/-- `PortPins(k, p)`: what a bus read of the port sees (44_chip_icr_sdr_ports.md R226). -/
def Chip.portPins (c : Chip) (p : PortId) : Byte :=
  match p with
  | .a => (c.pra &&& c.ddra) ||| (c.inA &&& ~~~c.ddra)
  | .b => c.mux ((c.prb &&& c.ddrb) ||| (c.inB &&& ~~~c.ddrb))

/-- The output wires `port_out[k][p]` (00_scope.md R18). -/
def State.portOut (s : State) (k : Nat) (p : PortId) : Byte := (s.chip k).portOut p

end Sys2Proof.Machine
end

