-- ==== Sys2Proof/Machine/ChipMisc.lean ====
section
/-! DEFINITION. The chip operations beside the register reads and writes: `CHIP_PEEK`, `CHIP_UPDATE`, `PORT_IN`,
`PORT_OUT`, `EXT_PULSE` (44_chip_icr_sdr_ports.md, 43_chip_timers.md). -/

namespace Sys2Proof.Machine

/-- `PeekValue(reg)` of a chip at cycle `c`: the byte `CHIP_READ` would return (44_chip_icr_sdr_ports.md R219, R212;
45_chip_tod.md R254). -/
def Chip.peek (ch : Chip) (r : Reg) (c : Cycle) : Byte :=
  match r with
  | .pra => ch.portPins .a
  | .prb => ch.portPins .b
  | .ddra => ch.ddra
  | .ddrb => ch.ddrb
  | .talo => lo8 (ch.live .A c)
  | .tahi => hi8 (ch.live .A c)
  | .tblo => lo8 (ch.live .B c)
  | .tbhi => hi8 (ch.live .B c)
  | .tod10 => ch.todView.tenths
  | .todsec => ch.todView.seconds
  | .todmin => ch.todView.minutes
  | .todhr => ch.todView.hours
  | .sdr => ch.sdr
  | .icr => ch.icrByte
  | .cra => ch.cra
  | .crb => ch.crb

/-- `CHIP_PEEK k, reg` (44_chip_icr_sdr_ports.md R219). -/
def execChipPeek (k : Nat) (r : Reg) (s : State) : Host.Outcome State Fault Refusal :=
  perform s (readChip k fun s => (s.chip k).peek r s.clk)

/-- `CHIP_UPDATE k, cycle` (43_chip_timers.md R200). -/
def execChipUpdate (k : Nat) (cycle : Cycle) (s : State) : Host.Outcome State Fault Refusal :=
  perform s fun s => onChip k s fun s => do
    cycleNotFuture cycle s
    let s ← updateTo k cycle s
    .ok (s, .nothing)

/-- The byte held for an input port is replaced (44_chip_icr_sdr_ports.md R229). -/
def setPortIn (k : Nat) (p : PortId) (v : Byte) (s : State) : State :=
  match p with
  | .a => s.setChip k { s.chip k with inA := v }
  | .b => s.setChip k { s.chip k with inB := v }

/-- `PORT_IN k, p, v`: no reconciliation (44_chip_icr_sdr_ports.md R229). -/
def execPortIn (k : Nat) (p : PortId) (v : Byte) (s : State) : Host.Outcome State Fault Refusal :=
  perform s fun s => onChip k s fun s => .ok (setPortIn k p v s, .nothing)

/-- `PORT_OUT k, p` (44_chip_icr_sdr_ports.md R230). -/
def execPortOut (k : Nat) (p : PortId) (s : State) : Host.Outcome State Fault Refusal :=
  perform s (readChip k fun s => s.portOut k p)

/-- A pulse's part for channel `x`: one count event at `clk` if it counts external pulses (43_chip_timers.md R201). -/
def pulseChannel (k : Nat) (x : Channel) (s : State) : State :=
  if (s.chip k).chanState x = .runningExt then countEvents k x .runningExt 1 s.clk.toNat 1 s else s

/-- `EXT_PULSE k` (43_chip_timers.md R201). -/
def execExtPulse (k : Nat) (s : State) : Host.Outcome State Fault Refusal :=
  perform s (writeChip k fun s => pulseChannel k .B (pulseChannel k .A s))

end Sys2Proof.Machine
end

