-- ==== Sys2Proof/Machine/ChipRead.lean ====
section
/-! DEFINITION. `CHIP_READ k, reg`, one meaning for each register (44_chip_icr_sdr_ports.md R231 and the register's
rule). -/

namespace Sys2Proof.Machine

/-- `CHIP_READ k, PRA` (44_chip_icr_sdr_ports.md R220). -/
def execChipReadPra (k : Nat) (s : State) : Host.Outcome State Fault Refusal :=
  perform s (readChip k fun s => (s.chip k).portPins .a)

/-- `CHIP_READ k, PRB` (44_chip_icr_sdr_ports.md R222). -/
def execChipReadPrb (k : Nat) (s : State) : Host.Outcome State Fault Refusal :=
  perform s (readChip k fun s => (s.chip k).portPins .b)

/-- `CHIP_READ k, DDRA` (44_chip_icr_sdr_ports.md R224). -/
def execChipReadDdra (k : Nat) (s : State) : Host.Outcome State Fault Refusal :=
  perform s (readChip k fun s => (s.chip k).ddra)

/-- `CHIP_READ k, DDRB` (44_chip_icr_sdr_ports.md R227). -/
def execChipReadDdrb (k : Nat) (s : State) : Host.Outcome State Fault Refusal :=
  perform s (readChip k fun s => (s.chip k).ddrb)

/-- `CHIP_READ k, TALO` (43_chip_timers.md R186). -/
def execChipReadTalo (k : Nat) (s : State) : Host.Outcome State Fault Refusal :=
  perform s (readChip k fun s => lo8 ((s.chip k).live .A s.clk))

/-- `CHIP_READ k, TAHI` (43_chip_timers.md R187). -/
def execChipReadTahi (k : Nat) (s : State) : Host.Outcome State Fault Refusal :=
  perform s (readChip k fun s => hi8 ((s.chip k).live .A s.clk))

/-- `CHIP_READ k, TBLO` (43_chip_timers.md R188). -/
def execChipReadTblo (k : Nat) (s : State) : Host.Outcome State Fault Refusal :=
  perform s (readChip k fun s => lo8 ((s.chip k).live .B s.clk))

/-- `CHIP_READ k, TBHI` (43_chip_timers.md R189). -/
def execChipReadTbhi (k : Nat) (s : State) : Host.Outcome State Fault Refusal :=
  perform s (readChip k fun s => hi8 ((s.chip k).live .B s.clk))

/-- A TOD register read: the byte and the read latch's change (45_chip_tod.md R245). -/
def readTod (k : Nat) (i : TodField) (s : State) : Result :=
  accessChip k s fun s => .ok (todRead k i s, .byte (todReadByte k i s))

/-- `CHIP_READ k, TOD10` (45_chip_tod.md R246). -/
def execChipReadTod10 (k : Nat) (s : State) : Host.Outcome State Fault Refusal :=
  perform s (readTod k .tenths)

/-- `CHIP_READ k, TODSEC` (45_chip_tod.md R247). -/
def execChipReadTodsec (k : Nat) (s : State) : Host.Outcome State Fault Refusal :=
  perform s (readTod k .seconds)

/-- `CHIP_READ k, TODMIN` (45_chip_tod.md R248). -/
def execChipReadTodmin (k : Nat) (s : State) : Host.Outcome State Fault Refusal :=
  perform s (readTod k .minutes)

/-- `CHIP_READ k, TODHR` (45_chip_tod.md R249). -/
def execChipReadTodhr (k : Nat) (s : State) : Host.Outcome State Fault Refusal :=
  perform s (readTod k .hours)

/-- `CHIP_READ k, SDR` (44_chip_icr_sdr_ports.md R216). -/
def execChipReadSdr (k : Nat) (s : State) : Host.Outcome State Fault Refusal :=
  perform s (readChip k fun s => (s.chip k).sdr)

/-- The destructive flag read's effect: the flags cleared, the cycle recorded, the source deasserted
(44_chip_icr_sdr_ports.md R211). -/
def clearFlags (k : Nat) (s : State) : State :=
  updateLine k s.clk (s.setChip k { s.chip k with flags := 0x00, lastRead := some s.clk })

/-- `CHIP_READ k, ICR` (44_chip_icr_sdr_ports.md R211). -/
def execChipReadIcr (k : Nat) (s : State) : Host.Outcome State Fault Refusal :=
  perform s fun s => accessChip k s fun s => .ok (clearFlags k s, .byte (s.chip k).icrByte)

/-- `CHIP_READ k, CRA` (43_chip_timers.md R196). -/
def execChipReadCra (k : Nat) (s : State) : Host.Outcome State Fault Refusal :=
  perform s (readChip k fun s => (s.chip k).cra)

/-- `CHIP_READ k, CRB` (43_chip_timers.md R197). -/
def execChipReadCrb (k : Nat) (s : State) : Host.Outcome State Fault Refusal :=
  perform s (readChip k fun s => (s.chip k).crb)

end Sys2Proof.Machine
end

