-- ==== Sys2Proof/Machine/ChipWrite.lean ====
section
/-! DEFINITION. `CHIP_WRITE k, reg, v`, one meaning for each register (44_chip_icr_sdr_ports.md R232 and the
register's rule). -/

namespace Sys2Proof.Machine

/-- `CHIP_WRITE k, PRA, v` (44_chip_icr_sdr_ports.md R221). -/
def execChipWritePra (k : Nat) (v : Byte) (s : State) : Host.Outcome State Fault Refusal :=
  perform s (writeChip k fun s => s.setChip k { s.chip k with pra := v })

/-- `CHIP_WRITE k, PRB, v` (44_chip_icr_sdr_ports.md R223). -/
def execChipWritePrb (k : Nat) (v : Byte) (s : State) : Host.Outcome State Fault Refusal :=
  perform s (writeChip k fun s => s.setChip k { s.chip k with prb := v })

/-- `CHIP_WRITE k, DDRA, v` (44_chip_icr_sdr_ports.md R225). -/
def execChipWriteDdra (k : Nat) (v : Byte) (s : State) : Host.Outcome State Fault Refusal :=
  perform s (writeChip k fun s => s.setChip k { s.chip k with ddra := v })

/-- `CHIP_WRITE k, DDRB, v` (44_chip_icr_sdr_ports.md R228). -/
def execChipWriteDdrb (k : Nat) (v : Byte) (s : State) : Host.Outcome State Fault Refusal :=
  perform s (writeChip k fun s => s.setChip k { s.chip k with ddrb := v })

/-- `CHIP_WRITE k, TALO, v` (43_chip_timers.md R192). -/
def execChipWriteTalo (k : Nat) (v : Byte) (s : State) : Host.Outcome State Fault Refusal :=
  perform s (writeChipE k (writeLatchByte k .A .lo v))

/-- `CHIP_WRITE k, TAHI, v` (43_chip_timers.md R193). -/
def execChipWriteTahi (k : Nat) (v : Byte) (s : State) : Host.Outcome State Fault Refusal :=
  perform s (writeChipE k (writeLatchByte k .A .hi v))

/-- `CHIP_WRITE k, TBLO, v` (43_chip_timers.md R194). -/
def execChipWriteTblo (k : Nat) (v : Byte) (s : State) : Host.Outcome State Fault Refusal :=
  perform s (writeChipE k (writeLatchByte k .B .lo v))

/-- `CHIP_WRITE k, TBHI, v` (43_chip_timers.md R195). -/
def execChipWriteTbhi (k : Nat) (v : Byte) (s : State) : Host.Outcome State Fault Refusal :=
  perform s (writeChipE k (writeLatchByte k .B .hi v))

/-- `CHIP_WRITE k, TOD10, v` (45_chip_tod.md R250). -/
def execChipWriteTod10 (k : Nat) (v : Byte) (s : State) : Host.Outcome State Fault Refusal :=
  perform s (writeChip k (todWrite k .tenths v))

/-- `CHIP_WRITE k, TODSEC, v` (45_chip_tod.md R251). -/
def execChipWriteTodsec (k : Nat) (v : Byte) (s : State) : Host.Outcome State Fault Refusal :=
  perform s (writeChip k (todWrite k .seconds v))

/-- `CHIP_WRITE k, TODMIN, v` (45_chip_tod.md R252). -/
def execChipWriteTodmin (k : Nat) (v : Byte) (s : State) : Host.Outcome State Fault Refusal :=
  perform s (writeChip k (todWrite k .minutes v))

/-- `CHIP_WRITE k, TODHR, v` (45_chip_tod.md R253). -/
def execChipWriteTodhr (k : Nat) (v : Byte) (s : State) : Host.Outcome State Fault Refusal :=
  perform s (writeChip k (todWrite k .hours v))

/-- The write of the shift data register: the byte is stored and, while shifting is enabled, a transfer of 16
half-bits starts (44_chip_icr_sdr_ports.md R217). -/
def writeSdr (k : Nat) (v : Byte) (s : State) : State :=
  let c := s.chip k
  s.setChip k { c with sdr := v, srBits := if c.cra.getLsbD 6 then 16 else c.srBits }

/-- `CHIP_WRITE k, SDR, v` (44_chip_icr_sdr_ports.md R217). -/
def execChipWriteSdr (k : Nat) (v : Byte) (s : State) : Host.Outcome State Fault Refusal :=
  perform s (writeChip k (writeSdr k v))

/-- The mask write and the source bit that follows it (44_chip_icr_sdr_ports.md R213). -/
def writeMask (k : Nat) (v : Byte) (s : State) : State :=
  updateLine k s.clk (s.setChip k { s.chip k with mask := maskWith (s.chip k).mask v })

/-- `CHIP_WRITE k, ICR, v` (44_chip_icr_sdr_ports.md R213). -/
def execChipWriteIcr (k : Nat) (v : Byte) (s : State) : Host.Outcome State Fault Refusal :=
  perform s (writeChip k (writeMask k v))

/-- `CHIP_WRITE k, CRA, v` (43_chip_timers.md R198). -/
def execChipWriteCra (k : Nat) (v : Byte) (s : State) : Host.Outcome State Fault Refusal :=
  perform s (writeChipE k (writeControl k .A v))

/-- `CHIP_WRITE k, CRB, v` (43_chip_timers.md R199). -/
def execChipWriteCrb (k : Nat) (v : Byte) (s : State) : Host.Outcome State Fault Refusal :=
  perform s (writeChipE k (writeControl k .B v))

end Sys2Proof.Machine
end

