-- ==== Sys2Proof/Machine/Clock.lean ====
section
/-! DEFINITION. The cycle counter and the clock-overflow guard: `CLK_ADVANCE`, `CLK_READ`, `GUARD_TICK`
(40_counter_guard.md). -/

namespace Sys2Proof.Machine

/-- A slot's part of `RebaseAll(sub)`: a disarmed slot keeps `NEVER` (40_counter_guard.md R106). -/
def Alarm.rebase (sub : Nat) (al : Alarm) : Alarm :=
  if al.armed then { al with target := BitVec.ofNat 32 (al.target.toNat - sub) } else al

/-- A line stamp's part of `RebaseAll(sub)`: it saturates at 0 (40_counter_guard.md R106). -/
def rebaseStamp (sub : Nat) (c : Cycle) : Cycle := BitVec.ofNat 32 (c.toNat - sub)

/-- Channel `x`'s part of `ChipRebase(k, sub)`: `U[x]` of a running channel (40_counter_guard.md R107). -/
def rebaseChan (sub : Nat) (running : Bool) (ch : Chan) : Chan :=
  if running then { ch with u := BitVec.ofNat 32 (ch.u.toNat - sub) } else ch

/-- `last_read`'s part of `ChipRebase(k, sub)`: an older one is dropped (40_counter_guard.md R107). -/
def rebaseLastRead (sub : Nat) (l : Option Cycle) : Option Cycle :=
  match l with
  | none => none
  | some c => if c.toNat ≥ sub then some (BitVec.ofNat 32 (c.toNat - sub)) else none

/-- `ChipRebase(k, sub)` (40_counter_guard.md R107). -/
def Chip.rebase (sub : Nat) (c : Chip) : Chip :=
  { c with
    rc := BitVec.ofNat 32 (c.rc.toNat - sub)
    chanA := rebaseChan sub (decide (c.chanState .A = .running)) c.chanA
    chanB := rebaseChan sub (decide (c.chanState .B = .running)) c.chanB
    lastRead := rebaseLastRead sub c.lastRead }

/-- `RebaseAll(sub)` (40_counter_guard.md R106). -/
def rebaseAll (sub : Nat) (s : State) : Except FaultCode State :=
  if s.alarms.any fun al => al.armed && decide (al.target.toNat < sub) then .error .schedInconsistency
  else
    .ok { s with
      clk := BitVec.ofNat 32 (s.clk.toNat - sub)
      alarms := s.alarms.map (Alarm.rebase sub)
      lineClkMaskable := rebaseStamp sub s.lineClkMaskable
      lineClkUrgent := rebaseStamp sub s.lineClkUrgent
      chips := s.chips.map (Chip.rebase sub) }

/-- Every chip reconciled at `clk`, the ordering requirement of the rebase (40_counter_guard.md R105). -/
def reconcileAll (s : State) : Except FaultCode State :=
  forUpTo (fun k s => updateTo k s.clk s) s.cfg.nchip s

/-- The guard above the high-water mark (40_counter_guard.md R103). -/
def guardRebase (s : State) : Result := do
  let sub := s.clk.toNat - s.cfg.safeBase
  let s ← reconcileAll s
  let s ← rebaseAll sub s
  .ok (emit (.rebase sub) s, .value (BitVec.ofNat 32 sub))

/-- `CLK_ADVANCE n` (40_counter_guard.md R100). -/
def execClkAdvance (n : BitVec 32) (s : State) : Host.Outcome State Fault Refusal :=
  perform s fun s => do
    let c ← cycleStore (s.clk.toNat + n.toNat)
    .ok ({ s with clk := c }, .nothing)

/-- `CLK_READ` (40_counter_guard.md R101). -/
def execClkRead (s : State) : Host.Outcome State Fault Refusal :=
  perform s fun s => .ok (s, .value s.clk)

/-- `GUARD_TICK` (40_counter_guard.md R103). -/
def execGuardTick (s : State) : Host.Outcome State Fault Refusal :=
  perform s fun s => afterDispatch s fun s =>
    if s.clk.toNat > s.cfg.highWater then guardRebase s else .ok (s, .nothing)

end Sys2Proof.Machine
end

