-- ==== Sys2Proof/Machine/Irq.lean ====
section
/-! DEFINITION. The interrupt aggregator's operations: `IRQ_ASSERT`, `IRQ_DEASSERT`, `IRQ_QUERY`, `IRQ_CPUMASK`,
`IRQ_STAMP` (42_interrupt_aggregator.md). -/

namespace Sys2Proof.Machine

/-- `set_source(n, b, at)` by an external chip: selector, implicit dispatch, cycle check, `AggSet`
(42_interrupt_aggregator.md R144, R145). -/
def setSourceOp (n : Nat) (b : Bool) (at_ : Cycle) (s : State) : Result := do
  selectExternalSource n s
  afterDispatch s fun s => do
    cycleNotFuture at_ s
    .ok (aggSet n b at_ s, .bit (newlyAsserted n b s))

/-- `IRQ_ASSERT s, at` (42_interrupt_aggregator.md R144). -/
def execIrqAssert (n : Nat) (at_ : Cycle) (s : State) : Host.Outcome State Fault Refusal :=
  perform s (setSourceOp n true at_)

/-- `IRQ_DEASSERT s, at` (42_interrupt_aggregator.md R145). -/
def execIrqDeassert (n : Nat) (at_ : Cycle) (s : State) : Host.Outcome State Fault Refusal :=
  perform s (setSourceOp n false at_)

/-- `IRQ_QUERY L, at` (42_interrupt_aggregator.md R146). -/
def execIrqQuery (l : Line) (at_ : Cycle) (s : State) : Host.Outcome State Fault Refusal :=
  perform s fun s => afterDispatch s fun s => do
    cycleNotFuture at_ s
    .ok (s, .bit (s.level l))

/-- `IRQ_CPUMASK m` (42_interrupt_aggregator.md R148). -/
def execIrqCpumask (m : Bool) (s : State) : Host.Outcome State Fault Refusal :=
  perform s fun s => afterDispatch s fun s => .ok ({ s with cpuMasked := m }, .nothing)

/-- `IRQ_STAMP L` (42_interrupt_aggregator.md R147). -/
def execIrqStamp (l : Line) (s : State) : Host.Outcome State Fault Refusal :=
  perform s fun s => afterDispatch s fun s => .ok (s, .value (s.lineClk l))

end Sys2Proof.Machine
end

