-- ==== Sys2Proof/Machine/Reset.lean ====
section
/-! DEFINITION. The resets: `DOMAIN_RESET`, `CHIP_RESET` (70_reset_and_hazards.md). The shared operations `chipReset`
and `domainReset` are in Sys2Proof/Machine/Ops.lean. -/

namespace Sys2Proof.Machine

/-- `DOMAIN_RESET`, accepted in every state, the fault state included (70_reset_and_hazards.md R310). -/
def execDomainReset (s : State) : Host.Outcome State Fault Refusal :=
  .next (conclude s ((domainReset s).map fun s' => (s', .nothing)))

/-- `CHIP_RESET k` (70_reset_and_hazards.md R311). -/
def execChipReset (k : Nat) (s : State) : Host.Outcome State Fault Refusal :=
  perform s fun s => onChip k s fun s => do
    let s ← chipReset k s.clk s
    .ok (s, .nothing)

end Sys2Proof.Machine
end

