-- ==== Sys2Proof/Machine/Snapshot.lean ====
section
/-! DEFINITION. The snapshot annex: `SNAP_SAVE`, `SNAP_RESTORE` (46_snapshot.md). Both opcodes are illegal when
`HAS_SNAPSHOT` is false (30_encoding.md R87). -/

namespace Sys2Proof.Machine

/-- The presence of the annex: without it the opcode is illegal (30_encoding.md R87, 60_exceptions.md R285, R287). -/
def snapshotPresent (s : State) : Except FaultCode Unit :=
  if s.cfg.hasSnapshot then .ok () else .error .illegalOp

/-! ### Saving -/

/-- A 16-bit item, low byte first (46_snapshot.md R261, 20_memory.md R64). -/
def bytes16 (v : Count) : List Byte := [v.extractLsb' 0 8, v.extractLsb' 8 8]

/-- A 32-bit item, low byte first (46_snapshot.md R261, 20_memory.md R64). -/
def bytes32 (v : BitVec 32) : List Byte :=
  [v.extractLsb' 0 8, v.extractLsb' 8 8, v.extractLsb' 16 8, v.extractLsb' 24 8]

/-- A time-of-day group, index 0 first (46_snapshot.md R261). -/
def Tod.bytes (t : Tod) : List Byte := [t.tenths, t.seconds, t.minutes, t.hours]

/-- `RdiByte` on save (46_snapshot.md R263). -/
def rdiByte (cfg : Config) (lastRead : Option Cycle) (clk : Cycle) : Byte :=
  match lastRead with
  | none => 0
  | some c =>
    let d := clk.toNat - c.toNat
    if d > cfg.snapRdiMax then 0 else BitVec.ofNat 8 (d + cfg.snapRdiBias)

/-- The status byte at offset 22 (46_snapshot.md R261). -/
def Chip.todStatusByte (c : Chip) : Byte := (if c.todLatched then 0x01 else 0) ||| (if c.todStopped then 0x02 else 0)

/-- The toggle byte at offset 32 (46_snapshot.md R261). -/
def Chip.toggleByte (c : Chip) : Byte :=
  (if c.chanA.toggle then 0x40 else 0) ||| (if c.chanB.toggle then 0x80 else 0)

/-- The 39 bytes of chip `k` (46_snapshot.md R261). -/
def snapPayload (k : Nat) (s : State) : List Byte :=
  let c := s.chip k
  [s.cfg.snapMajor, s.cfg.snapMinor, c.pra, c.prb, c.ddra, c.ddrb]
    ++ bytes16 (c.live .A s.clk) ++ bytes16 (c.live .B s.clk)
    ++ c.tod.bytes ++ c.todLatch.bytes ++ c.todAlarm.bytes
    ++ [c.todStatusByte, c.sdr, c.mask, c.cra, c.crb]
    ++ bytes16 c.chanA.latch ++ bytes16 c.chanB.latch
    ++ [c.flags, c.toggleByte, c.srBits.setWidth 8, rdiByte s.cfg c.lastRead s.clk]
    ++ bytes32 ((s.alarm (todSlot k)).target - s.clk)

/-- `SNAP_SAVE k` (46_snapshot.md R262). -/
def execSnapSave (k : Nat) (s : State) : Host.Outcome State Fault Refusal :=
  perform s fun s => do
    snapshotPresent s
    accessChip k s fun s => .ok (s, ⟨0, 39, snapPayload k s⟩)

/-! ### Restoring -/

/-- Byte `o` of a payload. -/
def byteAt (p : List Byte) (o : Nat) : Byte := p.getD o 0

/-- `p16(o) = p[o+1] ++ p[o]` (46_snapshot.md R266). -/
def p16 (p : List Byte) (o : Nat) : Count := byteAt p (o + 1) ++ byteAt p o

/-- `p32(o)`, likewise (46_snapshot.md R266). -/
def p32 (p : List Byte) (o : Nat) : BitVec 32 :=
  byteAt p (o + 3) ++ byteAt p (o + 2) ++ byteAt p (o + 1) ++ byteAt p o

/-- The four bytes of a time-of-day group, each masked (46_snapshot.md R266). -/
def todAt (p : List Byte) (o : Nat) : Tod :=
  ⟨byteAt p o &&& todMask .tenths, byteAt p (o + 1) &&& todMask .seconds,
   byteAt p (o + 2) &&& todMask .minutes, byteAt p (o + 3) &&& todMask .hours⟩

/-- The read-clock byte on restore (46_snapshot.md R263). -/
def lastReadOf (cfg : Config) (b : Byte) (clk : Cycle) : Option Cycle :=
  if b.toNat < cfg.snapRdiBias ∨ b.toNat - cfg.snapRdiBias > clk.toNat then none
  else some (BitVec.ofNat 32 (clk.toNat - (b.toNat - cfg.snapRdiBias)))

/-- The cycles to the next tick that a payload gives, at least one (46_snapshot.md R266). -/
def tickDelta (p : List Byte) : Nat := max (p32 p 35).toNat 1

/-- The payload is malformed: wrong length, wrong version, or a tick that does not fit (46_snapshot.md R266, R267). -/
def malformed (p : List Byte) (s : State) : Bool :=
  decide (p.length ≠ 39) || decide (byteAt p 0 ≠ s.cfg.snapMajor) || decide (byteAt p 1 ≠ s.cfg.snapMinor)
    || decide (s.clk.toNat + tickDelta p ≥ neverNat)

/-- The chip as the payload gives it, `U` left at `NEVER` (46_snapshot.md R266, its assignments). -/
def restoredChip (cfg : Config) (clk : Cycle) (p : List Byte) (c : Chip) : Chip :=
  { c with
    pra := byteAt p 2
    prb := byteAt p 3
    ddra := byteAt p 4
    ddrb := byteAt p 5
    chanA := ⟨p16 p 27, p16 p 6, never, (byteAt p 32).getLsbD 6⟩
    chanB := ⟨p16 p 29, p16 p 8, never, (byteAt p 32).getLsbD 7⟩
    tod := todAt p 10
    todLatch := todAt p 14
    todAlarm := todAt p 18
    todLatched := (byteAt p 22).getLsbD 0
    todStopped := (byteAt p 22).getLsbD 1
    sdr := byteAt p 23
    mask := byteAt p 24 &&& 0x0F
    cra := byteAt p 25 &&& 0xEF
    crb := byteAt p 26 &&& 0xEF
    flags := byteAt p 31 &&& 0x0F
    srBits := BitVec.ofNat 5 (min (byteAt p 33).toNat 16)
    lastRead := lastReadOf cfg (byteAt p 34) clk
    rc := clk }

/-- A running channel is armed again at `clk + max(cnt, 1)` (46_snapshot.md R266, R268): one cycle early also for a
save at the cycle of a natural underflow, which R268 and R269 do not name (DESIGN CHOICE, notes/assumptions/24.md). -/
def rearmChannel (k : Nat) (x : Channel) (s : State) : Except FaultCode State :=
  let ch := (s.chip k).chan x
  if (s.chip k).chanState x = .running then do
    let u ← cycleStore (s.clk.toNat + max ch.cnt.toNat 1)
    alarmSet (slotOf k x) u.toNat (s.setChan k x { ch with u := u })
  else .ok s

/-- The restore of a payload that is well-formed (46_snapshot.md R266). -/
def restoreFrom (k : Nat) (p : List Byte) (s : State) : Except FaultCode State := do
  let s := alarmUnset (todSlot k) (alarmUnset (slotOf k .B) (alarmUnset (slotOf k .A) s))
  let s := s.setChip k (restoredChip s.cfg s.clk p (s.chip k))
  let s ← rearmChannel k .A s
  let s ← rearmChannel k .B s
  let s ← alarmSet (todSlot k) (s.clk.toNat + tickDelta p) s
  .ok (updateLine k s.clk s)

/-- `SNAP_RESTORE k` with `PAYLOAD_IN` (46_snapshot.md R266, R267). -/
def execSnapRestore (k : Nat) (s : State) : Host.Outcome State Fault Refusal :=
  perform s fun s => do
    snapshotPresent s
    onChip k s fun s =>
      if malformed s.payloadIn s then .ok (s, .failed snapshotMalformed)
      else do
        let s ← restoreFrom k s.payloadIn s
        .ok (s, .nothing)

end Sys2Proof.Machine
end

