-- ==== Sys2Proof/Machine/Dispatch.lean ====
section
/-! DEFINITION. The meaning of every operation, one arm per constructor of Instr (30_encoding.md R84). -/

namespace Sys2Proof.Machine

def exec (i : Instr) (s : State) : Host.Outcome State Fault Refusal :=
  match i with
  | .domainReset => Sys2Proof.Machine.execDomainReset s
  | .chipReset k => Sys2Proof.Machine.execChipReset k s
  | .clkAdvance n => Sys2Proof.Machine.execClkAdvance n s
  | .clkRead => Sys2Proof.Machine.execClkRead s
  | .guardTick => Sys2Proof.Machine.execGuardTick s
  | .alarmSet a target => Sys2Proof.Machine.execAlarmSet a target s
  | .alarmUnset a => Sys2Proof.Machine.execAlarmUnset a s
  | .alarmNext => Sys2Proof.Machine.execAlarmNext s
  | .alarmRead a => Sys2Proof.Machine.execAlarmRead a s
  | .dispatch => Sys2Proof.Machine.execDispatch s
  | .irqAssert n at_ => Sys2Proof.Machine.execIrqAssert n at_ s
  | .irqDeassert n at_ => Sys2Proof.Machine.execIrqDeassert n at_ s
  | .irqQuery l at_ => Sys2Proof.Machine.execIrqQuery l at_ s
  | .irqCpumask m => Sys2Proof.Machine.execIrqCpumask m s
  | .irqStamp l => Sys2Proof.Machine.execIrqStamp l s
  | .chipReadPra k => Sys2Proof.Machine.execChipReadPra k s
  | .chipReadPrb k => Sys2Proof.Machine.execChipReadPrb k s
  | .chipReadDdra k => Sys2Proof.Machine.execChipReadDdra k s
  | .chipReadDdrb k => Sys2Proof.Machine.execChipReadDdrb k s
  | .chipReadTalo k => Sys2Proof.Machine.execChipReadTalo k s
  | .chipReadTahi k => Sys2Proof.Machine.execChipReadTahi k s
  | .chipReadTblo k => Sys2Proof.Machine.execChipReadTblo k s
  | .chipReadTbhi k => Sys2Proof.Machine.execChipReadTbhi k s
  | .chipReadTod10 k => Sys2Proof.Machine.execChipReadTod10 k s
  | .chipReadTodsec k => Sys2Proof.Machine.execChipReadTodsec k s
  | .chipReadTodmin k => Sys2Proof.Machine.execChipReadTodmin k s
  | .chipReadTodhr k => Sys2Proof.Machine.execChipReadTodhr k s
  | .chipReadSdr k => Sys2Proof.Machine.execChipReadSdr k s
  | .chipReadIcr k => Sys2Proof.Machine.execChipReadIcr k s
  | .chipReadCra k => Sys2Proof.Machine.execChipReadCra k s
  | .chipReadCrb k => Sys2Proof.Machine.execChipReadCrb k s
  | .chipWritePra k v => Sys2Proof.Machine.execChipWritePra k v s
  | .chipWritePrb k v => Sys2Proof.Machine.execChipWritePrb k v s
  | .chipWriteDdra k v => Sys2Proof.Machine.execChipWriteDdra k v s
  | .chipWriteDdrb k v => Sys2Proof.Machine.execChipWriteDdrb k v s
  | .chipWriteTalo k v => Sys2Proof.Machine.execChipWriteTalo k v s
  | .chipWriteTahi k v => Sys2Proof.Machine.execChipWriteTahi k v s
  | .chipWriteTblo k v => Sys2Proof.Machine.execChipWriteTblo k v s
  | .chipWriteTbhi k v => Sys2Proof.Machine.execChipWriteTbhi k v s
  | .chipWriteTod10 k v => Sys2Proof.Machine.execChipWriteTod10 k v s
  | .chipWriteTodsec k v => Sys2Proof.Machine.execChipWriteTodsec k v s
  | .chipWriteTodmin k v => Sys2Proof.Machine.execChipWriteTodmin k v s
  | .chipWriteTodhr k v => Sys2Proof.Machine.execChipWriteTodhr k v s
  | .chipWriteSdr k v => Sys2Proof.Machine.execChipWriteSdr k v s
  | .chipWriteIcr k v => Sys2Proof.Machine.execChipWriteIcr k v s
  | .chipWriteCra k v => Sys2Proof.Machine.execChipWriteCra k v s
  | .chipWriteCrb k v => Sys2Proof.Machine.execChipWriteCrb k v s
  | .chipPeek k r => Sys2Proof.Machine.execChipPeek k r s
  | .chipUpdate k cycle => Sys2Proof.Machine.execChipUpdate k cycle s
  | .portIn k p v => Sys2Proof.Machine.execPortIn k p v s
  | .portOut k p => Sys2Proof.Machine.execPortOut k p s
  | .extPulse k => Sys2Proof.Machine.execExtPulse k s
  | .snapSave k => Sys2Proof.Machine.execSnapSave k s
  | .snapRestore k => Sys2Proof.Machine.execSnapRestore k s

end Sys2Proof.Machine
end

