-- ==== Sys2Proof/Machine/Step.lean ====
section
/-! DEFINITION. One step: the next operation presented at the command port runs to completion (00_scope.md R11,
20_memory.md R66). With none presented nothing changes: the CDK contains no agent that steps by itself
(00_scope.md R11, notes/assumptions/5.md). -/

namespace Sys2Proof.Machine

/-- One step of the machine. -/
def step (s : State) : Host.Outcome State Fault Refusal :=
  match fetch s with
  | none => .next s
  | some (w, s') =>
    match decode w with
    | .ok i => exec i s'
    | .error _ => illegalWord s'

/-- `s` with the operation whose word's low `nbits` bits are those of `w` presented first, every bit above them 0
(notes/assumptions/4.md). -/
def State.withFetchWord (s : State) (nbits w : Nat) : State := presentFirst (BitVec.ofNat 48 (w % 2 ^ nbits)) s

end Sys2Proof.Machine
end

