-- ==== Sys2Proof/Safety.lean ====
section
/-! DEFINITION. What the statements say of a state: the invariants of the machine (43_chip_timers.md R162,
10_state.md R24, R33, R38, R39, 45_chip_tod.md R240), the room below `NEVER` that keeps every computed cycle value
storable (40_counter_guard.md R104), the states from which an operation completes, and the state that the opening of
an operation leads to. -/

namespace Sys2Proof

/-- The chip an operation names (30_encoding.md R84). -/
def Instr.chipOperand (i : Instr) : Option Nat :=
  match i with
  | .chipReset k | .chipReadPra k | .chipReadPrb k | .chipReadDdra k | .chipReadDdrb k | .chipReadTalo k
  | .chipReadTahi k | .chipReadTblo k | .chipReadTbhi k | .chipReadTod10 k | .chipReadTodsec k | .chipReadTodmin k
  | .chipReadTodhr k | .chipReadSdr k | .chipReadIcr k | .chipReadCra k | .chipReadCrb k | .chipWritePra k _
  | .chipWritePrb k _ | .chipWriteDdra k _ | .chipWriteDdrb k _ | .chipWriteTalo k _ | .chipWriteTahi k _
  | .chipWriteTblo k _ | .chipWriteTbhi k _ | .chipWriteTod10 k _ | .chipWriteTodsec k _ | .chipWriteTodmin k _
  | .chipWriteTodhr k _ | .chipWriteSdr k _ | .chipWriteIcr k _ | .chipWriteCra k _ | .chipWriteCrb k _
  | .chipPeek k _ | .chipUpdate k _ | .portIn k _ _ | .portOut k _ | .extPulse k | .snapSave k | .snapRestore k => some k
  | .domainReset | .clkAdvance _ | .clkRead | .guardTick | .alarmSet _ _ | .alarmUnset _ | .alarmNext | .alarmRead _
  | .dispatch | .irqAssert _ _ | .irqDeassert _ _ | .irqQuery _ _ | .irqCpumask _ | .irqStamp _ => none

/-- The two operations of the optional annex (46_snapshot.md). -/
def Instr.isSnapshot (i : Instr) : Bool := i matches .snapSave _ | .snapRestore _

/-- A cycle on a time scale that starts `sub` cycles later; `NEVER` stays `NEVER` (40_counter_guard.md R108). -/
def shiftCycle (sub : Nat) (c : Cycle) : Cycle := if c = never then never else c - BitVec.ofNat 32 sub

/-- The operation with its cycle operand, if it has one, shifted (40_counter_guard.md R108). -/
def Instr.shift (sub : Nat) (i : Instr) : Instr :=
  match i with
  | .alarmSet a c => .alarmSet a (shiftCycle sub c)
  | .irqAssert n c => .irqAssert n (shiftCycle sub c)
  | .irqDeassert n c => .irqDeassert n (shiftCycle sub c)
  | .irqQuery l c => .irqQuery l (shiftCycle sub c)
  | .chipUpdate k c => .chipUpdate k (shiftCycle sub c)
  | i => i

/-- The operation can be shifted: its cycle operand, if it has one, is not before the new origin, and it is neither
`GUARD_TICK`, which 40_counter_guard.md R108 leaves out, nor `DOMAIN_RESET`, which gives the shift up
(70_reset_and_hazards.md R310; notes/assumptions/21.md). -/
def Instr.CanShift (sub : Nat) (i : Instr) : Prop :=
  match i with
  | .guardTick | .domainReset => False
  | .alarmSet _ c | .irqAssert _ c | .irqDeassert _ c | .irqQuery _ c | .chipUpdate _ c => sub ≤ c.toNat
  | _ => True

end Sys2Proof

namespace Sys2Proof.Machine

/-- Channel `x` of chip `k`: invariants I1 and I2 of 43_chip_timers.md R162 (10_state.md R33), and the width of the
start-delay window: the next underflow lies at most two cycles beyond the counter (43_chip_timers.md R161). -/
structure ChanInv (s : State) (k : Nat) (x : Channel) : Prop where
  running_after : (s.chip k).chanState x = .running → (s.chip k).rc < ((s.chip k).chan x).u
  running_armed : (s.chip k).chanState x = .running → s.alarm (slotOf k x) = ⟨true, ((s.chip k).chan x).u⟩
  running_window : (s.chip k).chanState x = .running →
    ((s.chip k).chan x).u.toNat ≤ (s.chip k).rc.toNat + ((s.chip k).chan x).cnt.toNat + 2
  idle_never : (s.chip k).chanState x ≠ .running → ((s.chip k).chan x).u = never
  idle_disarmed : (s.chip k).chanState x ≠ .running → s.alarm (slotOf k x) = ⟨false, never⟩

/-- The bytes of a time-of-day group are inside their write masks (45_chip_tod.md R240). -/
abbrev Tod.Masked (t : Tod) : Prop :=
  t.tenths &&& 0xF0 = 0 ∧ t.seconds &&& 0x80 = 0 ∧ t.minutes &&& 0x80 = 0 ∧ t.hours &&& 0x60 = 0

/-- Chip `k`: I1 to I5 of 43_chip_timers.md R162, and the bits its registers never hold (10_state.md R35, R36, R38,
R39; 45_chip_tod.md R240). -/
structure ChipInv (s : State) (k : Nat) : Prop where
  chan : ∀ x, ChanInv s k x
  rc_le : (s.chip k).rc ≤ s.clk
  lastRead_le : ∀ c ∈ (s.chip k).lastRead, c ≤ (s.chip k).rc
  source_eq : s.source k = (s.chip k).summary
  srBits_le : (s.chip k).srBits.toNat ≤ 16
  tod_armed : (s.alarm (todSlot k)).armed = true
  mask_low : (s.chip k).mask &&& 0xF0 = 0
  flags_low : (s.chip k).flags &&& 0xF0 = 0
  cra_strobe : (s.chip k).cra &&& 0x10 = 0
  crb_strobe : (s.chip k).crb &&& 0x10 = 0
  tod_masked : (s.chip k).tod.Masked
  todAlarm_masked : (s.chip k).todAlarm.Masked
  todLatch_masked : (s.chip k).todLatch.Masked

/-- The invariant of the machine. -/
structure State.Inv (s : State) : Prop where
  cfg_wf : s.cfg.Wf
  alarms_length : s.alarms.length = s.cfg.nAlarms
  src_length : s.src.length = s.cfg.nSources
  chips_length : s.chips.length = s.cfg.nchip
  clk_lt : s.clk.toNat < neverNat
  armed_lt : ∀ al ∈ s.alarms, al.armed = true → al.target.toNat < neverNat
  disarmed_never : ∀ al ∈ s.alarms, al.armed = false → al.target = never
  lineClk_le : ∀ l, s.lineClk l ≤ s.clk
  chip : ∀ k < s.cfg.nchip, ChipInv s k

/-- No slot is due (41_alarm_scheduler.md R128). -/
abbrev State.NoneDue (s : State) : Prop := ∀ al ∈ s.alarms, al.due s.clk = false

/-- The counter is far enough below `NEVER` that no rule computes a cycle value that cannot be stored: the margin of
40_counter_guard.md R104. -/
abbrev State.Headroom (s : State) : Prop := s.clk.toNat + 65538 + s.cfg.todPeriod < neverNat

/-- An operation presented here finds the machine sound, out of the fault state, with room below `NEVER`. -/
structure State.Ready (s : State) : Prop where
  inv : s.Inv
  no_fault : s.fault = none
  headroom : s.Headroom

/-- How many callbacks a dispatch owes: one for each due external slot; one for each chip with a due channel slot,
since one reconciliation serves both channels; and one for each tick whose cycle has come, the first at the slot's
target and the others a period apart (41_alarm_scheduler.md R128, R129, R134). -/
def State.callbacksDue (s : State) : Nat :=
  let due : Nat → Bool := fun a => (s.alarm a).armed && decide ((s.alarm a).target.toNat ≤ s.clk.toNat)
  let external := ((List.range s.cfg.nAlarms).filter fun a => decide (3 * s.cfg.nchip ≤ a) && due a).length
  let channels := ((List.range s.cfg.nchip).filter fun k => due (3 * k) || due (3 * k + 1)).length
  let ticks := (List.range s.cfg.nchip).map fun k =>
    if due (3 * k + 2) then (s.clk.toNat - (s.alarm (3 * k + 2)).target.toNat) / s.cfg.todPeriod + 1 else 0
  external + channels + ticks.sum

/-- `s'` is `s` after the implicit dispatch (41_alarm_scheduler.md R130). -/
abbrev DispatchedAs (s s' : State) : Prop := ∃ n, dispatch s = .ok (s', n)

/-- `s'` is `s` after the implicit dispatch, with the live counters of chip `k` stored and its `rc` at `clk`, and
nothing else changed: what the opening of an access to chip `k` comes to when no underflow is left for the
reconciliation to process (43_chip_timers.md R166, 44_chip_icr_sdr_ports.md R231). -/
abbrev AccessedAs (s : State) (k : Nat) (s' : State) : Prop :=
  ∃ s₁, DispatchedAs s s₁ ∧ s' = storeLive k s₁.clk s₁

/-- The frame of an operation's work on chip `k`: nothing changed but chip `k`, its three slots, its source bit and the
line stamps (20_memory.md R73, 10_state.md R25, R26). -/
structure OnlyChip (k : Nat) (s s' : State) : Prop where
  cfg : s'.cfg = s.cfg
  clk : s'.clk = s.clk
  cpuMasked : s'.cpuMasked = s.cpuMasked
  fault : s'.fault = s.fault
  port : s'.port = s.port
  payloadIn : s'.payloadIn = s.payloadIn
  status : s'.status = s.status
  resp : s'.resp = s.resp
  payloadOut : s'.payloadOut = s.payloadOut
  events : s'.events = s.events
  alarms_length : s'.alarms.length = s.alarms.length
  src_length : s'.src.length = s.src.length
  chips_length : s'.chips.length = s.chips.length
  chip : ∀ j, j ≠ k → s'.chip j = s.chip j
  alarm : ∀ a, a ≠ slotOf k .A → a ≠ slotOf k .B → a ≠ todSlot k → s'.alarm a = s.alarm a
  source : ∀ n, n ≠ k → s'.source n = s.source n

/-- What reconciliation and dispatch leave alone in a chip: all but `cnt`, `U`, `toggle`, `flags`, `sr_bits`, the start
bits, `rc` (20_memory.md R67) and the running clock `tod` (45_chip_tod.md R243). -/
structure ChipKept (c c' : Chip) : Prop where
  latchA : c'.chanA.latch = c.chanA.latch
  latchB : c'.chanB.latch = c.chanB.latch
  cra : c'.cra &&& 0xFE = c.cra &&& 0xFE
  crb : c'.crb &&& 0xFE = c.crb &&& 0xFE
  mask : c'.mask = c.mask
  lastRead : c'.lastRead = c.lastRead
  sdr : c'.sdr = c.sdr
  todAlarm : c'.todAlarm = c.todAlarm
  todLatch : c'.todLatch = c.todLatch
  todStopped : c'.todStopped = c.todStopped
  todLatched : c'.todLatched = c.todLatched
  pra : c'.pra = c.pra
  prb : c'.prb = c.prb
  ddra : c'.ddra = c.ddra
  ddrb : c'.ddrb = c.ddrb
  inA : c'.inA = c.inA
  inB : c'.inB = c.inB

/-! ### One external pulse (43_chip_timers.md R201) -/

/-- An external pulse gives channel `x` one count event: each channel that counts pulses, and a cascaded channel B when
the pulse makes channel A underflow (43_chip_timers.md R164, R201). -/
def Chip.pulseCounts (c : Chip) (x : Channel) : Bool :=
  match x with
  | .A => decide (c.chanState .A = .runningExt)
  | .B =>
    decide (c.chanState .B = .runningExt) ||
      (decide (c.chanState .A = .runningExt) && decide (c.chanA.cnt.toNat ≤ 1) &&
        decide (c.chanState .B = .runningCascade))

/-- An external pulse makes channel `x` underflow: its count event finds the counter at 1 or 0 (43_chip_timers.md
R165). -/
def Chip.pulseUnderflows (c : Chip) (x : Channel) : Bool := c.pulseCounts x && decide ((c.chan x).cnt.toNat ≤ 1)

/-- An external pulse clocks the shift register: channel A underflows, shifting is enabled and a transfer is in
progress (43_chip_timers.md R164, 44_chip_icr_sdr_ports.md R218). -/
def Chip.pulseShifts (c : Chip) : Bool := c.pulseUnderflows .A && c.cra.getLsbD 6 && decide (c.srBits.toNat ≠ 0)

/-- An external pulse completes the transfer: its half-bit is the last one, or with `SR_EARLY = some e` the one that
brings the countdown to `e` (44_chip_icr_sdr_ports.md R218). -/
def Chip.pulseCompletes (c : Chip) (early : Option Nat) : Bool :=
  c.pulseShifts && decide (c.srBits.toNat = early.getD 0 + 1)

/-- Channel `x` after an external pulse (43_chip_timers.md R165). -/
def Chip.pulsedChan (c : Chip) (x : Channel) : Chan :=
  let ch := c.chan x
  if c.pulseUnderflows x then { ch with cnt := ch.latch, toggle := !ch.toggle }
  else if c.pulseCounts x then { ch with cnt := ch.cnt - 1 }
  else ch

/-- The control register of channel `x` after an external pulse: an underflow stops a one-shot channel
(43_chip_timers.md R165). -/
def Chip.pulsedCtl (c : Chip) (x : Channel) : Byte :=
  if c.pulseUnderflows x && (c.ctl x).getLsbD 3 then c.ctl x &&& 0xFE else c.ctl x

/-- The flags that an external pulse sets where no read has won (43_chip_timers.md R164, 44_chip_icr_sdr_ports.md
R210, R218). -/
def Chip.pulseFlags (c : Chip) (early : Option Nat) : Byte :=
  (if c.pulseUnderflows .A then 0x01 else 0) ||| (if c.pulseUnderflows .B then 0x02 else 0) |||
    (if c.pulseCompletes early then 0x08 else 0)

/-- A chip after an external pulse that adds the flags given (43_chip_timers.md R201). -/
def Chip.pulsed (c : Chip) (added : Byte) : Chip :=
  { c with
    chanA := c.pulsedChan .A
    chanB := c.pulsedChan .B
    cra := c.pulsedCtl .A
    crb := c.pulsedCtl .B
    srBits := if c.pulseShifts then c.srBits - 1 else c.srBits
    flags := c.flags ||| added }

/-! ### Runs of operations (00_scope.md R11) -/

/-- An operation as it is run: with its payload (30_encoding.md R83). -/
structure Operation where
  instr : Instr
  payload : List Byte
deriving DecidableEq, Repr

/-- The operation with its cycle operand shifted (40_counter_guard.md R108). -/
def Operation.shift (sub : Nat) (o : Operation) : Operation := { o with instr := o.instr.shift sub }

/-- What the last operation answered (30_encoding.md R81, R83). -/
def State.reply (s : State) : Reply := ⟨s.status, s.resp, s.payloadOut⟩

/-- The operations run one after another from `s`, answer these replies and end in `u` (20_memory.md R66, R72). -/
def Runs : List Operation → State → List Reply → State → Prop
  | [], s, rs, u => rs = [] ∧ u = s
  | o :: os, s, rs, u => ∃ t rs', exec o.instr { s with payloadIn := o.payload } = .next t ∧
      rs = t.reply :: rs' ∧ Runs os t rs' u

/-- The reply shifted: an operation that returns an absolute cycle returns it shifted, every other returns what it
did; the stamp of a line that last rose before the new origin is 0 (40_counter_guard.md R106, R108). -/
def Reply.shift (sub : Nat) (i : Instr) (r : Reply) : Reply :=
  if r.status ≠ 0 then r
  else
    match i with
    | .clkRead | .alarmNext | .alarmRead _ => { r with resp := shiftCycle sub r.resp }
    | .irqStamp _ => { r with resp := if sub ≤ r.resp.toNat then r.resp - BitVec.ofNat 32 sub else 0 }
    | _ => r

/-- The operation found no cycle too great to store: it raised no `ClockOverflow`, and if it refused a payload that was
for its length or version (60_exceptions.md R281, R283; 46_snapshot.md R267). -/
def Operation.Fits (cfg : Config) (o : Operation) (r : Reply) : Prop :=
  r.status ≠ 3 ∧ (r.status = 5 →
    o.payload.length ≠ 39 ∨ byteAt o.payload 0 ≠ cfg.snapMajor ∨ byteAt o.payload 1 ≠ cfg.snapMinor)

/-! ### The time of day -/

/-- A BCD byte below sixty (45_chip_tod.md R240). -/
abbrev Bcd60 (b : Byte) : Prop := (b &&& 0x0F).toNat ≤ 9 ∧ b.toNat / 16 ≤ 5

/-- The number a BCD byte below sixty stands for. -/
def bcdValue (b : Byte) : Nat := 10 * (b.toNat / 16) + b.toNat % 16

/-- An hours byte the clock counts from rightly: 12, 01, ..., 11 with the PM bit (45_chip_tod.md R240), and 00, which
is outside that range and is the value after reset (45_chip_tod.md R255). -/
abbrev HoursValid (h : Byte) : Prop :=
  h &&& 0x60 = 0 ∧ (h &&& 0x0F).toNat ≤ 9 ∧ bcdValue (h &&& 0x1F) ≤ 12

/-- A time of day that is valid BCD in its ranges, or in hour 00 (45_chip_tod.md R240, R255). -/
abbrev Tod.Valid (t : Tod) : Prop :=
  t.tenths.toNat ≤ 9 ∧ Bcd60 t.seconds ∧ Bcd60 t.minutes ∧ HoursValid t.hours

/-- The hour of the day, 0 to 23: 12 AM and 00 AM are 0, 12 PM is 12. -/
def hourOfDay (h : Byte) : Nat := bcdValue (h &&& 0x1F) % 12 + (if h.getLsbD 7 then 12 else 0)

/-- Tenths of a second since midnight. -/
def Tod.sinceMidnight (t : Tod) : Nat :=
  ((hourOfDay t.hours * 60 + bcdValue t.minutes) * 60 + bcdValue t.seconds) * 10 + t.tenths.toNat

/-- The state before and the state after differ in `fault` and in the response alone (60_exceptions.md R280). -/
abbrev FaultsWith (f : FaultCode) (s : State) (o : Host.Outcome State Fault Refusal) : Prop := o = .next (takeFault f s)

end Sys2Proof.Machine
end

