-- ==== Sys2Proof/Certificates/Slice0/Obligations.lean ====
section
/-! DEFINITION. The statements about the model, for the provers. Each is titled and cited in OBLIGATIONS.json; the
docstring names the rules of spec/ it comes from. -/

open Sys2Proof Sys2Proof.Machine

/-! ### The encoding (30_encoding.md) -/

/-- Decoding an encoded well-formed operation gives it back, every operand at every value its field admits
(30_encoding.md R80, R82, R84). -/
def Obligations.DecodeOfEncode : Prop := ∀ i : Instr, i.WellFormed → decode (encode i) = .ok i

/-- Every word that decodes gives a well-formed operation, and encoding it gives the word back with the bits the
operation does not use cleared: no used bit is lost, and no ignored bit has an effect (30_encoding.md R82, R84). -/
def Obligations.EncodeOfDecode : Prop :=
  ∀ (w : CmdWord) (i : Instr), decode w = .ok i → i.WellFormed ∧ encode i = w &&& usedBits i

/-- The four example words of 30_encoding.md R90, and one word of each other block, decode as the spec writes them. -/
def Obligations.SampleWordsDecode : Prop :=
  decode 0x410E00000011 = .ok (.chipWriteCra 0 0x11) ∧ decode 0x10000000000A = .ok (.clkAdvance 10) ∧
  decode 0x32000000000A = .ok (.irqQuery .maskable 10) ∧ decode 0x2003000001F4 = .ok (.alarmSet 3 500) ∧
  decode 0x010000000000 = .ok .domainReset ∧ decode 0x401D00000000 = .ok (.chipReadIcr 1) ∧
  decode 0x4421000000A5 = .ok (.portIn 2 .b 0xA5) ∧ decode 0x503000000000 = .ok (.snapSave 3)

/-- One step takes the next operation presented and runs the operation its word decodes to; with none presented it
changes nothing (00_scope.md R11; notes/assumptions/4.md, notes/assumptions/5.md). -/
def Obligations.StepRunsPresentedOperation : Prop :=
  (∀ (s : State) (p : Presented) (rest : List Presented) (i : Instr), s.port = p :: rest → decode p.word = .ok i →
    step s = exec i { s with port := rest, payloadIn := p.payload }) ∧
  (∀ s : State, s.port = [] → step s = .next s)

/-- `IllegalOp` is raised for exactly the opcodes outside the table and, without the snapshot annex, for the two
snapshot opcodes; no `SEL` or `DATA` makes a listed opcode illegal (60_exceptions.md R285, 30_encoding.md R87). That an
illegal word has left the command port is the model's own (notes/assumptions/4.md, notes/assumptions/7.md). -/
def Obligations.IllegalOpcodesAlone : Prop :=
  (∀ w : CmdWord, (∃ e, decode w = .error e) ↔ (opField w).toNat ∉ opcodes) ∧
  (∀ (s : State) (p : Presented) (rest : List Presented), s.fault = none → s.port = p :: rest →
    (opField p.word).toNat ∉ opcodes →
    step s = .next { s with port := rest, payloadIn := p.payload, fault := some .illegalOp, status := 1, resp := 0, payloadOut := [] }) ∧
  (∀ (s : State) (k : Nat), s.fault = none → s.cfg.hasSnapshot = false →
    exec (.snapSave k) s = .next { s with fault := some .illegalOp, status := 1, resp := 0, payloadOut := [] } ∧
    exec (.snapRestore k) s = .next { s with fault := some .illegalOp, status := 1, resp := 0, payloadOut := [] }) ∧
  (∀ (s t : State) (i : Instr), s.fault = none → exec i s = .next t → t.fault = some .illegalOp →
    i.isSnapshot = true ∧ s.cfg.hasSnapshot = false)

/-! ### Faults and totality (60_exceptions.md) -/

/-- In the fault state every operation but `DOMAIN_RESET` is refused: it changes nothing and answers STATUS = fault,
RESP = 0; `DOMAIN_RESET` leaves the fault state (30_encoding.md R88). That a refused operation has left the command port
is the model's own (notes/assumptions/4.md, notes/assumptions/7.md). -/
def Obligations.FaultStateRefuses : Prop :=
  ∀ (s : State) (f : FaultCode), s.fault = some f →
    (∀ i : Instr, i ≠ .domainReset →
      exec i s = .next { s with status := f.code, resp := 0, payloadOut := [] }) ∧
    (∀ (p : Presented) (rest : List Presented), s.port = p :: rest → decode p.word ≠ .ok .domainReset →
      step s = .next { s with port := rest, payloadIn := p.payload, status := f.code, resp := 0, payloadOut := [] }) ∧
    (s.cfg.Wf → ∃ t, exec .domainReset s = .next t ∧ t.fault = none ∧ t.status = 0)

/-- Every operation, in every state without a fault, ends in exactly one of three ways: it completes with STATUS 0; it
raises a fault, and then the state is the one before it with only `fault` set and the fault's code answered; or, for
`SNAP_RESTORE` alone, it fails recoverably (60_exceptions.md R280, R288; 30_encoding.md R81). -/
def Obligations.EveryOperationEnds : Prop :=
  (∀ (i : Instr) (s : State), s.fault = none → ∃ t, exec i s = .next t ∧
    ((t.status = 0 ∧ t.fault = none) ∨
     (∃ f : FaultCode, t = { s with fault := some f, status := f.code, resp := 0, payloadOut := [] }) ∨
     ((∃ k, i = .snapRestore k) ∧ t.status = 5 ∧ t.resp = 0 ∧ t.fault = none))) ∧
  (∀ s : State, ∃ t, step s = .next t)

/-- A selector out of range, or one that names what a chip owns, raises `BadSelector` before anything is dispatched
(60_exceptions.md R282). -/
def Obligations.BadSelectorsFault : Prop :=
  ∀ s : State, s.fault = none →
    (∀ (i : Instr) (k : Nat), i.chipOperand = some k → s.cfg.nchip ≤ k → (i.isSnapshot = true → s.cfg.hasSnapshot = true) →
      FaultsWith .badSelector s (exec i s)) ∧
    (∀ a, s.cfg.nAlarms ≤ a → FaultsWith .badSelector s (exec (.alarmRead a) s)) ∧
    (∀ a target, s.cfg.nAlarms ≤ a ∨ a < 3 * s.cfg.nchip →
      FaultsWith .badSelector s (exec (.alarmSet a target) s) ∧ FaultsWith .badSelector s (exec (.alarmUnset a) s)) ∧
    (∀ n at_, s.cfg.nSources ≤ n ∨ n < s.cfg.nchip →
      FaultsWith .badSelector s (exec (.irqAssert n at_) s) ∧ FaultsWith .badSelector s (exec (.irqDeassert n at_) s))

/-- With room below `NEVER` no operation but an advance of the counter and an alarm set by the driver can raise
`ClockOverflow` (60_exceptions.md R283, 40_counter_guard.md R104). -/
def Obligations.NoOverflowWithHeadroom : Prop :=
  ∀ (s t : State) (i : Instr), s.Ready → (∀ n, i ≠ .clkAdvance n) → (∀ a target, i ≠ .alarmSet a target) →
    exec i s = .next t → t.fault ≠ some .clockOverflow

/-! ### Reset and the invariant (70_reset_and_hazards.md, 43_chip_timers.md R162) -/

/-- `DOMAIN_RESET` from any state, the fault state included, gives the reset state of the configuration, with the
latches as drawn; the model's own command port and event stream stay (70_reset_and_hazards.md R310, R312, R313,
10_state.md R47, R48; notes/assumptions/3.md, 4.md, 6.md). -/
def Obligations.DomainResetFromAnyState : Prop :=
  ∀ s : State, s.cfg.Wf →
    exec .domainReset s = .next
      { State.resetOf s.cfg (fun j => Config.freeLatch (s.draws + j)) with
        port := s.port, payloadIn := s.payloadIn, events := s.events, draws := s.draws + 2 * s.cfg.nchip }

/-- `CHIP_RESET k`: after the implicit dispatch the chip has its reset values at cycle `clk`, its channel alarms are
disarmed, its tick alarm is armed one period on, its source is deasserted, and nothing else changes
(70_reset_and_hazards.md R311, R312; 10_state.md R48). -/
def Obligations.ChipResetResets : Prop :=
  ∀ (s : State) (k : Nat), s.Ready → k < s.cfg.nchip → ∃ s₁, DispatchedAs s s₁ ∧
    exec (.chipReset k) s = .next (State.answer
      { s₁ with
        chips := s₁.chips.set k
          { Chip.atReset (Config.freeLatch s₁.draws) (Config.freeLatch (s₁.draws + 1)) with rc := s₁.clk }
        alarms := ((s₁.alarms.set (3 * k) ⟨false, never⟩).set (3 * k + 1) ⟨false, never⟩).set (3 * k + 2)
          ⟨true, BitVec.ofNat 32 (s₁.clk.toNat + s.cfg.todPeriod)⟩
        src := s₁.src.set k false
        draws := s₁.draws + 2 } Reply.nothing)

/-- The invariant of 43_chip_timers.md R162 (10_state.md R24, R33) holds right after reset, in the reference
configuration and in every well-formed one, whatever the latches. -/
def Obligations.ResetMeetsInvariant : Prop :=
  State.reset.Inv ∧ ∀ (cfg : Config) (draw : Nat → Count), cfg.Wf → (State.resetOf cfg draw).Inv

/-- Every step keeps the invariant of 43_chip_timers.md R162 (10_state.md R24, R33, R38, R39; 45_chip_tod.md R240):
"a model should prove them preserved by every rule". -/
def Obligations.StepKeepsInvariant : Prop := ∀ s s' : State, s.Inv → step s = .next s' → s'.Inv

/-- No step writes the parameters, takes more than one operation from the port or takes back an output event
(10_state.md R49, 00_scope.md R11, R17). -/
def Obligations.StepKeepsWiring : Prop :=
  ∀ s s' : State, step s = .next s' →
    s'.cfg = s.cfg ∧ s'.port = s.port.tail ∧ s.events <+: s'.events ∧ s.draws ≤ s'.draws

/-- The counter changes only by `CLK_ADVANCE`, which adds, by the guard's rebase, which leaves it at `SAFE_BASE`, and
by `DOMAIN_RESET`, which zeroes it (40_counter_guard.md R102, 70_reset_and_hazards.md R319). -/
def Obligations.CounterWritersAreThree : Prop :=
  ∀ (s t : State) (i : Instr), exec i s = .next t → t.clk ≠ s.clk →
    (i = .domainReset ∧ t.clk = 0) ∨
    (∃ n, i = .clkAdvance n ∧ t.clk.toNat = s.clk.toNat + n.toNat) ∨
    (i = .guardTick ∧ s.cfg.highWater < s.clk.toNat ∧ t.clk = BitVec.ofNat 32 s.cfg.safeBase)

/-! ### The counter and its guard (40_counter_guard.md) -/

/-- `CLK_ADVANCE n` adds `n` and does nothing else, or faults and leaves the counter (40_counter_guard.md R100). -/
def Obligations.ClkAdvanceAdds : Prop :=
  (∀ w : CmdWord, opField w = 0x10 → decode w = .ok (.clkAdvance (dataField w))) ∧
  ∀ (s : State) (n : BitVec 32), s.fault = none →
    (s.clk.toNat + n.toNat < neverNat →
      exec (.clkAdvance n) s = .next { s with clk := s.clk + n, status := 0, resp := 0, payloadOut := [] }) ∧
    (neverNat ≤ s.clk.toNat + n.toNat →
      exec (.clkAdvance n) s = .next { s with fault := some .clockOverflow, status := 3, resp := 0, payloadOut := [] })

/-- `CLK_READ` returns `clk` and changes nothing (40_counter_guard.md R101). -/
def Obligations.ClkReadReturnsClk : Prop :=
  (∀ w : CmdWord, opField w = 0x11 → decode w = .ok .clkRead) ∧
  ∀ s : State, s.fault = none →
    exec .clkRead s = .next { s with status := 0, resp := s.clk, payloadOut := [] }

/-- `GUARD_TICK`: at or below the high-water mark it dispatches and returns 0; above it, every chip is reconciled at
`clk` and `sub = clk - SAFE_BASE` is subtracted from every cached cycle value of the domain, the line stamps saturate
at 0, a `last_read` older than `sub` is dropped, `rebase(sub)` is emitted and `sub` returned (40_counter_guard.md
R103, R105, R106, R107). -/
def Obligations.GuardTickRebases : Prop :=
  ∀ s : State, s.Ready → ∃ s₁, DispatchedAs s s₁ ∧
    (s.clk.toNat ≤ s.cfg.highWater → exec .guardTick s = .next (s₁.answer .nothing)) ∧
    (s.cfg.highWater < s.clk.toNat →
      let sub := s.clk.toNat - s.cfg.safeBase
      let back : Cycle → Cycle := fun c => c - BitVec.ofNat 32 sub
      let stamp : Cycle → Cycle := fun c => if sub ≤ c.toNat then back c else 0
      exec .guardTick s = .next
        { s₁ with
          clk := BitVec.ofNat 32 s.cfg.safeBase
          alarms := s₁.alarms.map fun al => if al.armed then ⟨true, back al.target⟩ else ⟨false, never⟩
          lineClkMaskable := stamp s₁.lineClkMaskable
          lineClkUrgent := stamp s₁.lineClkUrgent
          chips := (List.range s.cfg.nchip).map fun k =>
            let c := (storeLive k s₁.clk s₁).chip k
            { c with
              rc := BitVec.ofNat 32 s.cfg.safeBase
              chanA := { c.chanA with u := if c.chanState .A = .running then back c.chanA.u else never }
              chanB := { c.chanB with u := if c.chanState .B = .running then back c.chanB.u else never }
              lastRead := (c.lastRead.filter fun r => decide (sub ≤ r.toNat)).map back }
          events := s₁.events ++ [.rebase sub]
          status := 0
          resp := BitVec.ofNat 32 sub
          payloadOut := [] })

/-- A rebase is transparent. Right after it every register of every chip peeks the same, every line has the same level
and every port puts out the same byte. And over any sequence of operations but `GUARD_TICK` and `DOMAIN_RESET`, from a
state whose chips are reconciled as a rebase requires: run on the rebased state with their cycle operands shifted, the
operations answer the same, but for the absolute cycles they return, which are shifted, and end in the rebased end
state. It needs what keeps the unshifted run itself from meeting `NEVER`, and for `SNAP_SAVE` that the rebase drops no
`last_read` young enough to be saved. `DOMAIN_RESET` takes both states to the same one (40_counter_guard.md R106, R107,
R108; 42_interrupt_aggregator.md R150; notes/assumptions/21.md). -/
def Obligations.RebaseIsTransparent : Prop :=
  (∀ (s s' : State) (sub : Nat), rebaseAll sub s = .ok s' → sub ≤ s.clk.toNat →
    (∀ k < s.cfg.nchip, ∀ x, (s.chip k).chanState x = .running → s.clk < ((s.chip k).chan x).u) →
    s'.clk.toNat + sub = s.clk.toNat ∧
    (∀ k < s.cfg.nchip, ∀ r, (s'.chip k).peek r s'.clk = (s.chip k).peek r s.clk) ∧
    (∀ k < s.cfg.nchip, ∀ p, s'.portOut k p = s.portOut k p) ∧
    (∀ l, s'.level l = s.level l)) ∧
  (∀ (s s' u : State) (sub : Nat) (os : List Operation) (rs : List Reply),
    s.Inv → sub ≤ s.clk.toNat → (∀ k < s.cfg.nchip, sub ≤ (s.chip k).rc.toNat) → rebaseAll sub s = .ok s' →
    (∀ o ∈ os, o.instr.CanShift sub) →
    (∀ o ∈ os, ∀ k, o.instr = .snapSave k → sub + s.cfg.snapRdiMax ≤ s.clk.toNat) →
    Runs os s rs u → (∀ x ∈ os.zip rs, x.1.Fits s.cfg x.2) →
    ∃ u', Runs (os.map (Operation.shift sub)) s' ((os.zip rs).map fun x => x.2.shift sub x.1.instr) u' ∧
      rebaseAll sub u = .ok { u' with resp := u.resp }) ∧
  (∀ (s s' : State) (sub : Nat), s.Inv → rebaseAll sub s = .ok s' → exec .domainReset s' = exec .domainReset s)

/-! ### The alarm scheduler (41_alarm_scheduler.md) -/

/-- `ALARM_SET a, target` arms an external slot and does nothing else; it faults on an owned or absent slot and on
`NEVER` (41_alarm_scheduler.md R122). -/
def Obligations.AlarmSetArms : Prop :=
  (∀ w : CmdWord, opField w = 0x20 → decode w = .ok (.alarmSet (selNumber w) (dataField w))) ∧
  ∀ (s : State) (a : Nat) (target : Cycle), s.fault = none →
    (s.cfg.nAlarms ≤ a ∨ a < 3 * s.cfg.nchip → FaultsWith .badSelector s (exec (.alarmSet a target) s)) ∧
    (a < s.cfg.nAlarms → 3 * s.cfg.nchip ≤ a → target = never →
      FaultsWith .clockOverflow s (exec (.alarmSet a target) s)) ∧
    (a < s.cfg.nAlarms → 3 * s.cfg.nchip ≤ a → target ≠ never →
      exec (.alarmSet a target) s = .next
        { s with alarms := s.alarms.set a ⟨true, target⟩, status := 0, resp := 0, payloadOut := [] })

/-- `ALARM_UNSET a` disarms an external slot and does nothing else (41_alarm_scheduler.md R124). -/
def Obligations.AlarmUnsetDisarms : Prop :=
  (∀ w : CmdWord, opField w = 0x21 → decode w = .ok (.alarmUnset (selNumber w))) ∧
  ∀ (s : State) (a : Nat), s.fault = none →
    (s.cfg.nAlarms ≤ a ∨ a < 3 * s.cfg.nchip → FaultsWith .badSelector s (exec (.alarmUnset a) s)) ∧
    (a < s.cfg.nAlarms → 3 * s.cfg.nchip ≤ a →
      exec (.alarmUnset a) s = .next
        { s with alarms := s.alarms.set a ⟨false, never⟩, status := 0, resp := 0, payloadOut := [] })

/-- `ALARM_READ a` returns the slot's target, which reads `NEVER` while it is disarmed, and changes nothing
(41_alarm_scheduler.md R127). -/
def Obligations.AlarmReadReturnsTarget : Prop :=
  (∀ w : CmdWord, opField w = 0x23 → decode w = .ok (.alarmRead (selNumber w))) ∧
  ∀ (s : State) (a : Nat), s.fault = none →
    (s.cfg.nAlarms ≤ a → FaultsWith .badSelector s (exec (.alarmRead a) s)) ∧
    (a < s.cfg.nAlarms →
      exec (.alarmRead a) s = .next { s with status := 0, resp := (s.alarm a).target, payloadOut := [] }) ∧
    (s.Inv → a < s.cfg.nAlarms → (s.alarm a).armed = false → (s.alarm a).target = never)

/-- `ALARM_NEXT` returns the earliest armed target, or `NEVER` when no slot is armed, and changes nothing
(41_alarm_scheduler.md R126). -/
def Obligations.AlarmNextIsMinimum : Prop :=
  (∀ w : CmdWord, opField w = 0x22 → decode w = .ok .alarmNext) ∧
  ∀ s : State, s.fault = none → ∃ m : Cycle,
    exec .alarmNext s = .next { s with status := 0, resp := m, payloadOut := [] } ∧
    (∀ al ∈ s.alarms, al.armed = true → m ≤ al.target) ∧
    (m = never ∨ ∃ al ∈ s.alarms, al.armed = true ∧ al.target = m)

/-- With room below `NEVER` a dispatch ends, leaves no slot due, keeps the invariant and the counter
(41_alarm_scheduler.md R128, R134; 40_counter_guard.md R104). -/
def Obligations.DispatchCompletes : Prop :=
  ∀ s : State, s.Ready → ∃ s₁ n, dispatch s = .ok (s₁, n) ∧ s₁.Ready ∧ s₁.NoneDue ∧ s₁.clk = s.clk

/-- What a dispatch leaves alone: the parameters, the counter, the processor's mask, the fault state, the port, the
response, the draws, every external source, every external slot that is not due, and in each chip all but the fields
that a callback writes; a frozen clock keeps its time (20_memory.md R67, R73; 45_chip_tod.md R243). -/
def Obligations.DispatchFrame : Prop :=
  ∀ (s s₁ : State) (n : Nat), dispatch s = .ok (s₁, n) →
    s₁.cfg = s.cfg ∧ s₁.clk = s.clk ∧ s₁.cpuMasked = s.cpuMasked ∧ s₁.fault = s.fault ∧ s₁.port = s.port ∧
    s₁.payloadIn = s.payloadIn ∧ s₁.status = s.status ∧ s₁.resp = s.resp ∧ s₁.payloadOut = s.payloadOut ∧
    s₁.draws = s.draws ∧ s₁.alarms.length = s.alarms.length ∧ s₁.src.length = s.src.length ∧
    s₁.chips.length = s.chips.length ∧
    (∀ m, s.cfg.nchip ≤ m → s₁.source m = s.source m) ∧
    (∀ a, 3 * s.cfg.nchip ≤ a → (s.alarm a).due s.clk = false → s₁.alarm a = s.alarm a) ∧
    (∀ a, 3 * s.cfg.nchip ≤ a → (s.alarm a).due s.clk = true → s₁.alarm a = ⟨false, never⟩) ∧
    (∀ k, ChipKept (s.chip k) (s₁.chip k)) ∧
    (∀ k, (s.chip k).todStopped = true → (s₁.chip k).tod = (s.chip k).tod)

/-- A dispatch emits `fired(a, clk - target[a])` once for each external slot that was due, in ascending slot order,
and no other event (41_alarm_scheduler.md R128, R129, R131). -/
def Obligations.DispatchEmitsFired : Prop :=
  ∀ (s s₁ : State) (n : Nat), dispatch s = .ok (s₁, n) →
    s₁.events = s.events ++
      ((List.range s.alarms.length).filter fun a => decide (3 * s.cfg.nchip ≤ a) && (s.alarm a).due s.clk).map
        fun a => Event.fired a (s.clk.toNat - (s.alarm a).target.toNat)

/-- `DISPATCH` dispatches and returns the number of callbacks invoked, which the slots due before it give: one for each
external slot, one for each chip with a due channel, one for each tick that has come; with nothing due it returns 0 and
changes nothing (41_alarm_scheduler.md R128, R129, R134; a count of 2^32 or more has no stated value,
notes/assumptions/10.md). -/
def Obligations.DispatchReturnsCount : Prop :=
  ∀ s : State, s.Ready → ∃ (s₁ : State) (r : BitVec 32),
    dispatch s = .ok (s₁, s.callbacksDue) ∧
    exec .dispatch s = .next { s₁ with status := 0, resp := r, payloadOut := [] } ∧
    (s.callbacksDue < 2 ^ 32 → r.toNat = s.callbacksDue) ∧
    (s.NoneDue → s₁ = s ∧ s.callbacksDue = 0)

/-! ### The interrupt aggregator (42_interrupt_aggregator.md) -/

/-- `IRQ_ASSERT s, at`: after the dispatch the source bit is 1; if its line was low it rises, is stamped with `at`,
and the answer is 1 unless the line is the maskable one and masked; a cycle in the future faults
(42_interrupt_aggregator.md R143, R144). -/
def Obligations.IrqAssertSets : Prop :=
  ∀ (s : State) (n : Nat) (at_ : Cycle), s.Ready → n < s.cfg.nSources → s.cfg.nchip ≤ n → ∃ s₁, DispatchedAs s s₁ ∧
    (at_ ≤ s.clk →
      let l := s.lineOf n
      let set : State := { s₁ with src := s₁.src.set n true }
      set.level l = true ∧
      exec (.irqAssert n at_) s = .next
        (if s₁.level l then set.answer (.bit false)
         else (set.setLineClk l at_).answer (.bit (!(decide (l = .maskable) && s.cpuMasked))))) ∧
    (s.clk < at_ → FaultsWith .schedInconsistency s (exec (.irqAssert n at_) s))

/-- `IRQ_DEASSERT s, at`: after the dispatch the source bit is 0, no line is stamped and the answer is 0; a cycle in
the future faults (42_interrupt_aggregator.md R143, R145). -/
def Obligations.IrqDeassertClears : Prop :=
  ∀ (s : State) (n : Nat) (at_ : Cycle), s.Ready → n < s.cfg.nSources → s.cfg.nchip ≤ n → ∃ s₁, DispatchedAs s s₁ ∧
    (at_ ≤ s.clk →
      exec (.irqDeassert n at_) s = .next
        { s₁ with src := s₁.src.set n false, status := 0, resp := 0, payloadOut := [] }) ∧
    (s.clk < at_ → FaultsWith .schedInconsistency s (exec (.irqDeassert n at_) s))

/-- `IRQ_QUERY L, at` dispatches and returns the level of the line, the OR of its sources, and changes nothing more;
a cycle in the future faults (42_interrupt_aggregator.md R141, R146). -/
def Obligations.IrqQueryReturnsLevel : Prop :=
  ∀ (s : State) (l : Line) (at_ : Cycle), s.Ready → ∃ s₁, DispatchedAs s s₁ ∧
    (at_ ≤ s.clk → ∃ b : Bool,
      exec (.irqQuery l at_) s = .next (s₁.answer (.bit b)) ∧
      (b = true ↔ ∃ n < s.cfg.nSources, s.cfg.srcLine.getD n .maskable = l ∧ s₁.source n = true)) ∧
    (s.clk < at_ → FaultsWith .schedInconsistency s (exec (.irqQuery l at_) s))

/-- `IRQ_CPUMASK m` dispatches and sets `cpu_masked`; it changes no line level (42_interrupt_aggregator.md R148). -/
def Obligations.IrqCpumaskSetsMask : Prop :=
  ∀ (s : State) (m : Bool), s.Ready → ∃ s₁, DispatchedAs s s₁ ∧
    ∃ t, exec (.irqCpumask m) s = .next t ∧
      t = { s₁ with cpuMasked := m, status := 0, resp := 0, payloadOut := [] } ∧ ∀ l, t.level l = s₁.level l

/-- `IRQ_STAMP L` dispatches and returns the cycle of the line's last rising edge (42_interrupt_aggregator.md R147). -/
def Obligations.IrqStampReturnsEdge : Prop :=
  ∀ (s : State) (l : Line), s.Ready → ∃ s₁, DispatchedAs s s₁ ∧
    exec (.irqStamp l) s = .next
      { s₁ with
        status := 0
        resp := match l with
          | .maskable => s₁.lineClkMaskable
          | .urgent => s₁.lineClkUrgent
        payloadOut := [] }

/-! ### Access to a chip, and its plain registers (44_chip_icr_sdr_ports.md) -/

/-- The opening of every access: with room below `NEVER`, the dispatch and the reconciliation at `clk` succeed, the
reconciliation stores the live counters and `rc` alone, and the body of the access runs in the state so reached
(44_chip_icr_sdr_ports.md R231, R232; 41_alarm_scheduler.md R130; 43_chip_timers.md R166). -/
def Obligations.AccessOpens : Prop :=
  ∀ (s : State) (k : Nat), s.Ready → k < s.cfg.nchip → ∃ s₂, AccessedAs s k s₂ ∧ s₂.Ready ∧ s₂.NoneDue ∧
    (s₂.chip k).rc = s.clk ∧ ∀ body : State → Result, accessChip k s body = body s₂

/-- `CHIP_READ` of PRA, PRB, DDRA, DDRB, SDR, CRA and CRB returns the port pins or the stored byte and changes
nothing beyond the opening (44_chip_icr_sdr_ports.md R216, R220, R222, R224, R227; 43_chip_timers.md R196, R197). -/
def Obligations.PlainReadsReturn : Prop :=
  ∀ (s : State) (k : Nat), s.Ready → k < s.cfg.nchip → ∃ s₂, AccessedAs s k s₂ ∧
    exec (.chipReadPra k) s = .next (s₂.answer (.byte ((s₂.chip k).portPins .a))) ∧
    exec (.chipReadPrb k) s = .next (s₂.answer (.byte ((s₂.chip k).portPins .b))) ∧
    exec (.chipReadDdra k) s = .next (s₂.answer (.byte (s₂.chip k).ddra)) ∧
    exec (.chipReadDdrb k) s = .next (s₂.answer (.byte (s₂.chip k).ddrb)) ∧
    exec (.chipReadSdr k) s = .next (s₂.answer (.byte (s₂.chip k).sdr)) ∧
    exec (.chipReadCra k) s = .next (s₂.answer (.byte (s₂.chip k).cra)) ∧
    exec (.chipReadCrb k) s = .next (s₂.answer (.byte (s₂.chip k).crb)) ∧
    (s₂.chip k).cra.getLsbD 4 = false ∧ (s₂.chip k).crb.getLsbD 4 = false

/-- `CHIP_WRITE` of PRA, PRB, DDRA and DDRB stores the byte and changes nothing else beyond the opening
(44_chip_icr_sdr_ports.md R221, R223, R225, R228). -/
def Obligations.PortRegisterWritesStore : Prop :=
  ∀ (s : State) (k : Nat) (v : Byte), s.Ready → k < s.cfg.nchip → ∃ s₂, AccessedAs s k s₂ ∧
    let c := s₂.chip k
    let store : Chip → State := fun c' => { s₂ with chips := s₂.chips.set k c', status := 0, resp := 0, payloadOut := [] }
    exec (.chipWritePra k v) s = .next (store { c with pra := v }) ∧
    exec (.chipWritePrb k v) s = .next (store { c with prb := v }) ∧
    exec (.chipWriteDdra k v) s = .next (store { c with ddra := v }) ∧
    exec (.chipWriteDdrb k v) s = .next (store { c with ddrb := v })

/-- `PORT_IN k, p, v` dispatches and stores the input byte; the chip is not reconciled (44_chip_icr_sdr_ports.md
R229). -/
def Obligations.PortInStores : Prop :=
  ∀ (s : State) (k : Nat) (v : Byte), s.Ready → k < s.cfg.nchip → ∃ s₁, DispatchedAs s s₁ ∧
    let c := s₁.chip k
    let store : Chip → State := fun c' => { s₁ with chips := s₁.chips.set k c', status := 0, resp := 0, payloadOut := [] }
    exec (.portIn k .a v) s = .next (store { c with inA := v }) ∧
    exec (.portIn k .b v) s = .next (store { c with inB := v })

/-- `PORT_OUT k, p` returns the port's output byte after the opening and changes nothing more
(44_chip_icr_sdr_ports.md R230). -/
def Obligations.PortOutReturnsWires : Prop :=
  ∀ (s : State) (k : Nat) (p : PortId), s.Ready → k < s.cfg.nchip → ∃ s₂, AccessedAs s k s₂ ∧
    exec (.portOut k p) s = .next (s₂.answer (.byte (s₂.portOut k p)))

/-- The port bytes bit by bit: a pin is its output bit where the direction bit is 1, otherwise the input (pins) or 1
(output); pins 6 and 7 of port B carry the toggle bits where they are enabled, whatever the direction; the output
wires carry the output byte (44_chip_icr_sdr_ports.md R226). -/
def Obligations.PortBytesBitwise : Prop :=
  (∀ (s : State) (k : Nat) (p : PortId), s.portOut k p = (s.chip k).portOut p) ∧
  ∀ (c : Chip) (i : Nat), i < 8 →
    (c.portOut .a).getLsbD i = (c.pra.getLsbD i || !c.ddra.getLsbD i) ∧
    (c.portPins .a).getLsbD i = (if c.ddra.getLsbD i then c.pra.getLsbD i else c.inA.getLsbD i) ∧
    (c.portOut .b).getLsbD i =
      (if i = 6 ∧ c.cra.getLsbD 1 = true then c.chanA.toggle
       else if i = 7 ∧ c.crb.getLsbD 1 = true then c.chanB.toggle
       else c.prb.getLsbD i || !c.ddrb.getLsbD i) ∧
    (c.portPins .b).getLsbD i =
      (if i = 6 ∧ c.cra.getLsbD 1 = true then c.chanA.toggle
       else if i = 7 ∧ c.crb.getLsbD 1 = true then c.chanB.toggle
       else if c.ddrb.getLsbD i then c.prb.getLsbD i else c.inB.getLsbD i)

/-- `CHIP_PEEK` returns, for every register, the byte that `CHIP_READ` of it would return at that moment, and has no
side effect beyond the opening (20_memory.md R69). -/
def Obligations.PeekIsReadWithoutEffects : Prop :=
  ∀ (s : State) (k : Nat), s.Ready → k < s.cfg.nchip → ∃ s₂, AccessedAs s k s₂ ∧
    ∀ r : Reg, ∃ (b : Byte) (t : State), exec (.chipPeek k r) s = .next (s₂.answer (.byte b)) ∧
      exec (chipReadOf k r) s = .next t ∧ t.status = 0 ∧ t.resp = b.setWidth 32

/-! ### Flags, mask, shift register (44_chip_icr_sdr_ports.md) -/

/-- The destructive flag read: it returns the flags with bit 7 the summary, clears them, records the cycle and
deasserts the chip's source; no line is stamped (44_chip_icr_sdr_ports.md R211, R214, R215). -/
def Obligations.IcrReadClears : Prop :=
  ∀ (s : State) (k : Nat), s.Ready → k < s.cfg.nchip → ∃ s₂, AccessedAs s k s₂ ∧
    let c := s₂.chip k
    exec (.chipReadIcr k) s = .next
      { s₂ with
        chips := s₂.chips.set k { c with flags := 0, lastRead := some s.clk }
        src := s₂.src.set k false
        status := 0
        resp := ((c.flags &&& 0x0F) ||| (if c.flags &&& c.mask &&& 0x0F = 0 then 0 else 0x80)).setWidth 32
        payloadOut := [] }

/-- The mask write: bit 7 selects setting or clearing the mask bits named in 3:0, and the chip's source and line
follow at once, with the cycle of the write (44_chip_icr_sdr_ports.md R213, R214). -/
def Obligations.IcrWriteMasks : Prop :=
  ∀ (s : State) (k : Nat) (v : Byte), s.Ready → k < s.cfg.nchip → ∃ s₂, AccessedAs s k s₂ ∧
    let c := s₂.chip k
    let m := if v.getLsbD 7 then c.mask ||| (v &&& 0x0F) else c.mask &&& ~~~(v &&& 0x0F)
    let b := decide (c.flags &&& m &&& 0x0F ≠ 0)
    let l := s.lineOf k
    let written : State := { s₂ with chips := s₂.chips.set k { c with mask := m }, src := s₂.src.set k b }
    exec (.chipWriteIcr k v) s = .next
      ((if !s₂.level l && written.level l then written.setLineClk l s.clk else written).answer .nothing)

/-- The write of the shift data register stores the byte and, while shifting on underflow is enabled, starts a
transfer of 16 half-bits. Each underflow of a running channel A then counts one half-bit down while `cra[6]` is 1, never
below 0; the completion flag is set, once, by the underflow that brings the countdown to 0, or to the value of
`SR_EARLY`, with the cycle of that underflow; nothing else clocks the register in a reconciliation, and no shift changes
the data byte (44_chip_icr_sdr_ports.md R217, R218; 43_chip_timers.md R163, R164). -/
def Obligations.SdrWriteStartsTransfer : Prop :=
  (∀ (s : State) (k : Nat) (v : Byte), s.Ready → k < s.cfg.nchip → ∃ s₂, AccessedAs s k s₂ ∧
    let c := s₂.chip k
    exec (.chipWriteSdr k v) s = .next
      { s₂ with
        chips := s₂.chips.set k { c with sdr := v, srBits := if c.cra.getLsbD 6 then 16 else c.srBits }
        status := 0, resp := 0, payloadOut := [] }) ∧
  (∀ (s : State) (k : Nat) (c : Cycle), s.Inv → k < s.cfg.nchip → (s.chip k).rc ≤ c → c.toNat + 65538 < neverNat →
    ∃ t, updateTo k c s = .ok t ∧
      let chip := s.chip k
      let clocked := chip.chanState .A = .running ∧ chip.chanA.u ≤ c ∧ chip.cra.getLsbD 6 = true
      let e0 := chip.chanA.u.toNat
      let P := chip.chanA.latch.toNat + 1
      let n := if chip.cra.getLsbD 3 then 1 else 1 + (c.toNat - e0) / P
      let old := chip.srBits.toNat
      let last := s.cfg.srEarly.getD 0
      let done := last < old ∧ old - n ≤ last
      let l := s.lineOf k
      (t.chip k).sdr = chip.sdr ∧
      (clocked → (t.chip k).srBits.toNat = old - n ∧
        ((t.chip k).flags.getLsbD 3 = true ↔ chip.flags.getLsbD 3 = true ∨ done) ∧
        (done → chip.mask = 0x08 → s.level l = false → t.lineClk l = BitVec.ofNat 32 (e0 + (old - last - 1) * P))) ∧
      (¬clocked → (t.chip k).srBits = chip.srBits ∧ (t.chip k).flags.getLsbD 3 = chip.flags.getLsbD 3))

/-- The read-wins rule at the one place where it shows: a destructive flag read, and after it an external pulse at the
same cycle. Where the chip has the rule the pulse sets no flag at all; where it has not, it sets F_TA, F_TB and F_SDR
for the underflows and the completion it causes; the channels and the countdown move the same in both
(44_chip_icr_sdr_ports.md R210, R211, R218; 43_chip_timers.md R164, R201). -/
def Obligations.ReadWinsOverPulse : Prop :=
  ∀ (s t : State) (k : Nat), s.Ready → k < s.cfg.nchip → exec (.chipReadIcr k) s = .next t →
    ∃ u, exec (.extPulse k) t = .next u ∧
      let c := t.chip k
      (s.cfg.readWins.getD k false = true → (u.chip k).flags = 0) ∧
      (s.cfg.readWins.getD k false = false →
        (∀ i : Nat, (u.chip k).flags.getLsbD i = true ↔
          (i = 0 ∧ c.pulseUnderflows .A = true) ∨ (i = 1 ∧ c.pulseUnderflows .B = true) ∨
          (i = 3 ∧ c.pulseCompletes s.cfg.srEarly = true))) ∧
      (u.chip k) = { c.pulsed 0 with flags := (u.chip k).flags }

/-! ### The countdown channels (43_chip_timers.md) -/

/-- `CHIP_READ` of TALO, TAHI, TBLO and TBHI returns the low or high byte of the live counter: the stored counter,
or what is left to the next underflow where that is less, never the latch; nothing changes beyond the opening
(43_chip_timers.md R161, R186, R187, R188, R189). -/
def Obligations.CounterReadsReturnLive : Prop :=
  ∀ (s : State) (k : Nat), s.Ready → k < s.cfg.nchip → ∃ s₁ s₂, DispatchedAs s s₁ ∧ AccessedAs s k s₂ ∧
    ∃ live : Channel → Count,
      (∀ x, (live x).toNat =
        (if (s₁.chip k).chanState x = .running then
          min ((s₁.chip k).chan x).cnt.toNat (((s₁.chip k).chan x).u.toNat - s.clk.toNat)
        else ((s₁.chip k).chan x).cnt.toNat)) ∧
      exec (.chipReadTalo k) s = .next (s₂.answer (.byte ((live .A).extractLsb' 0 8))) ∧
      exec (.chipReadTahi k) s = .next (s₂.answer (.byte ((live .A).extractLsb' 8 8))) ∧
      exec (.chipReadTblo k) s = .next (s₂.answer (.byte ((live .B).extractLsb' 0 8))) ∧
      exec (.chipReadTbhi k) s = .next (s₂.answer (.byte ((live .B).extractLsb' 8 8)))

/-- `CHIP_WRITE` of TALO, TAHI, TBLO and TBHI replaces one byte of the latch; while the channel is RUNNING and its
live counter equals the old latch, the counter is written through and the next underflow moves with it, never to
`clk` or before (43_chip_timers.md R190, R192, R193, R194, R195; 20_memory.md R63). -/
def Obligations.LatchWritesReplaceByte : Prop :=
  ∀ (s : State) (k : Nat) (v : Byte), s.Ready → k < s.cfg.nchip → ∃ s₂, AccessedAs s k s₂ ∧
    ∀ p ∈ [(Channel.A, false, Instr.chipWriteTalo k v), (Channel.A, true, Instr.chipWriteTahi k v),
           (Channel.B, false, Instr.chipWriteTblo k v), (Channel.B, true, Instr.chipWriteTbhi k v)],
      let x := p.1
      let ch := (s₂.chip k).chan x
      let new : Count := if p.2.1 then v ++ ch.latch.extractLsb' 0 8 else ch.latch.extractLsb' 8 8 ++ v
      let u : Cycle := BitVec.ofNat 32 (max (ch.u.toNat - ch.latch.toNat + new.toNat) (s.clk.toNat + 1))
      exec p.2.2 s = .next
        (if (s₂.chip k).chanState x = .running ∧ ch.cnt = ch.latch then
          ((s₂.setChan k x { ch with latch := new, cnt := new, u := u }).setAlarm (slotOf k x) ⟨true, u⟩).answer .nothing
        else (s₂.setChan k x { ch with latch := new }).answer .nothing)

/-- `CHIP_WRITE` of CRA and CRB: start, stop, forced load of a running channel and forced load of an idle one, each
with the counter, next underflow and alarm the rule gives; the byte is stored with its strobe bit cleared and nothing
else changes (43_chip_timers.md R170, R171, R172, R173, R198, R199). -/
def Obligations.ControlWritesTransition : Prop :=
  ∀ (s : State) (k : Nat) (v : Byte), s.Ready → k < s.cfg.nchip → ∃ s₂, AccessedAs s k s₂ ∧
    ∀ p ∈ [(Channel.A, Instr.chipWriteCra k v), (Channel.B, Instr.chipWriteCrb k v)],
      let x := p.1
      let ch := (s₂.chip k).chan x
      let load := v.getLsbD 4
      let was := decide ((s₂.chip k).chanState x = .running)
      let will := decide (ctlState x v = .running)
      let cnt : Count := if load then ch.latch else if was && !will then BitVec.ofNat 16 (ch.cnt.toNat - 1) else ch.cnt
      let u : Cycle := BitVec.ofNat 32 (s.clk.toNat + cnt.toNat + 1 + load.toNat)
      let counted : State :=
        if will && (!was || load) then (s₂.setChan k x { ch with cnt := cnt, u := u }).setAlarm (slotOf k x) ⟨true, u⟩
        else if was && !will then
          (s₂.setChan k x { ch with cnt := cnt, u := never }).setAlarm (slotOf k x) ⟨false, never⟩
        else s₂.setChan k x { ch with cnt := cnt }
      exec p.2 s = .next ((counted.setCtl k x (v &&& 0xEF)).answer .nothing)

/-- `CHIP_UPDATE k, cycle` reconciles at a past cycle and returns 0; a cycle in the future, or before the last
reconciliation, faults. The last reconciliation is the one before the operation or the dispatch's, which a due tick does
not bring about (43_chip_timers.md R166, R200; 60_exceptions.md R284; notes/assumptions/23.md). -/
def Obligations.ChipUpdateReconciles : Prop :=
  ∀ (s : State) (k : Nat) (cycle : Cycle), s.Ready → k < s.cfg.nchip → ∃ s₁, DispatchedAs s s₁ ∧
    (s.clk < cycle → FaultsWith .schedInconsistency s (exec (.chipUpdate k cycle) s)) ∧
    (cycle < (s₁.chip k).rc → FaultsWith .schedInconsistency s (exec (.chipUpdate k cycle) s)) ∧
    ((s₁.chip k).rc ≤ cycle → cycle ≤ s.clk →
      exec (.chipUpdate k cycle) s = .next ((storeLive k cycle s₁).answer .nothing))

/-- `EXT_PULSE k`: each channel that counts external pulses counts one, and a cascaded channel B counts the underflow of
channel A that the pulse causes; at 1 or 0 a count event underflows: the counter reloads, the toggle flips, a one-shot
channel stops and the flag is set; the underflow of channel A clocks the shift register, whose completion sets its
flag. No flag is set where the flags were read at this very cycle and the chip has the read-wins rule. The source follows
the flags, a rising line is stamped with `clk`, and nothing else changes beyond the opening (43_chip_timers.md R164,
R165, R201; 44_chip_icr_sdr_ports.md R210, R214, R218). -/
def Obligations.ExtPulseCounts : Prop :=
  ∀ (s : State) (k : Nat), s.Ready → k < s.cfg.nchip → ∃ s₂, AccessedAs s k s₂ ∧
    let c := s₂.chip k
    let won := s.cfg.readWins.getD k false && decide (c.lastRead = some s.clk)
    let c' := c.pulsed (if won then 0 else c.pulseFlags s.cfg.srEarly)
    let l := s.lineOf k
    let counted : State :=
      { s₂ with chips := s₂.chips.set k c', src := s₂.src.set k (decide (c'.flags &&& c'.mask &&& 0x0F ≠ 0)) }
    exec (.extPulse k) s = .next
      ((if !s₂.level l && counted.level l then counted.setLineClk l s.clk else counted).answer .nothing)

/-- Reconciliation is idempotent: called again at the same cycle it changes no field; it leaves `rc` at the cycle,
and in every RUNNING channel the next underflow after it and the live value stored (43_chip_timers.md R167). -/
def Obligations.UpdateToIsIdempotent : Prop :=
  ∀ (s s' : State) (k : Nat) (c : Cycle), k < s.chips.length → updateTo k c s = .ok s' →
    updateTo k c s' = .ok s' ∧ (s'.chip k).rc = c ∧
    ∀ x, (s'.chip k).chanState x = .running →
      c < ((s'.chip k).chan x).u ∧ ((s'.chip k).chan x).cnt = (s'.chip k).live x c

/-- What reconciliation changes: of the chip only the cached fields, never the time of day; of the domain nothing but
the chip's own slots, its source bit and the line stamps. What it does to a running channel whose next underflow has
come: every underflow up to the cycle is taken, one if the channel is one-shot, the toggle flips once for each, the
counter reloads, a one-shot channel clears its start bit and disarms its alarm, another is rescheduled after the last of
them, its flag is set and a line that rises for it is stamped with the first; a running channel whose underflow has not
come only stores its live counter, and a channel that is not running changes only by the cascade. A dispatch
reconciles at `clk` each chip with a due channel slot, and no other (20_memory.md R67, R73; 43_chip_timers.md R161, R163,
R164, R166; 41_alarm_scheduler.md R129; 44_chip_icr_sdr_ports.md R210, R214). That it reconciles no other chip is the
model's choice where rules of the spec disagree: one with nothing due keeps `rc` and its counters, by R128 and R166
against R133 (DESIGN CHOICE, notes/assumptions/22.md), and one with only a tick due keeps them too, by R243 against R200
(DESIGN CHOICE, notes/assumptions/23.md). -/
def Obligations.ReconcileFrame : Prop :=
  (∀ (s s' : State) (k : Nat) (c : Cycle), updateTo k c s = .ok s' →
    OnlyChip k s s' ∧ ChipKept (s.chip k) (s'.chip k) ∧ (s'.chip k).tod = (s.chip k).tod ∧ s'.draws = s.draws ∧
    s'.alarm (todSlot k) = s.alarm (todSlot k)) ∧
  (∀ (s : State) (k : Nat) (c : Cycle), s.Inv → k < s.cfg.nchip → (s.chip k).rc ≤ c → c.toNat + 65538 < neverNat →
    ∃ t, updateTo k c s = .ok t ∧
      t.source k = decide ((t.chip k).flags &&& (t.chip k).mask ≠ 0) ∧
      ∀ x : Channel,
        let ch := (s.chip k).chan x
        let ctl := (s.chip k).ctl x
        let state := (s.chip k).chanState x
        let cascaded := x = .B ∧ state = .runningCascade
        let flag : Byte := match x with
          | .A => 0x01
          | .B => 0x02
        let oneShot := ctl.getLsbD 3
        let P := ch.latch.toNat + 1
        let n := if oneShot then 1 else 1 + (c.toNat - ch.u.toNat) / P
        let u : Cycle := if oneShot then never else BitVec.ofNat 32 (ch.u.toNat + n * P)
        let cnt : Count := if oneShot then ch.latch else BitVec.ofNat 16 (min ch.latch.toNat (u.toNat - c.toNat))
        let l := s.lineOf k
        (state = .running → ch.u ≤ c →
          (t.chip k).chan x = ⟨ch.latch, cnt, u, if n % 2 = 1 then !ch.toggle else ch.toggle⟩ ∧
          (t.chip k).ctl x = (if oneShot then ctl &&& 0xFE else ctl) ∧
          t.alarm (slotOf k x) = (if oneShot then ⟨false, never⟩ else ⟨true, u⟩) ∧
          (t.chip k).flags &&& flag = flag ∧
          ((s.chip k).mask = flag → s.level l = false → t.lineClk l = ch.u)) ∧
        (state = .running → c < ch.u →
          (t.chip k).chan x = { ch with cnt := BitVec.ofNat 16 (min ch.cnt.toNat (ch.u.toNat - c.toNat)) }) ∧
        (state ≠ .running → ¬cascaded → (t.chip k).chan x = ch) ∧
        (¬(state = .running ∧ ch.u ≤ c) → ¬cascaded →
          (t.chip k).ctl x = ctl ∧ t.alarm (slotOf k x) = s.alarm (slotOf k x) ∧
          (t.chip k).flags &&& flag = (s.chip k).flags &&& flag)) ∧
  (∀ (s s₁ : State) (k : Nat), s.Ready → k < s.cfg.nchip → DispatchedAs s s₁ →
    ∃ t, (if (s.alarm (3 * k)).due s.clk || (s.alarm (3 * k + 1)).due s.clk then updateTo k s.clk s = .ok t else t = s) ∧
      s₁.chip k = { t.chip k with tod := (s₁.chip k).tod, flags := (s₁.chip k).flags } ∧
      (s₁.chip k).flags &&& 0xFB = (t.chip k).flags &&& 0xFB ∧
      s₁.alarm (3 * k) = t.alarm (3 * k) ∧ s₁.alarm (3 * k + 1) = t.alarm (3 * k + 1))

/-- Fast-forward: reconciling once at `c2` reaches the same chip, the same alarm table and the same source bits as
reconciling at `c1` first and then at `c2` (43_chip_timers.md R169; the line stamps left out, notes/assumptions/22.md). -/
def Obligations.FastForwardEquivalence : Prop :=
  ∀ (s s₂ : State) (k : Nat) (c1 c2 : Cycle), s.Inv → k < s.cfg.nchip → (s.chip k).rc ≤ c1 → c1 ≤ c2 →
    updateTo k c2 s = .ok s₂ →
    ∃ s₁ s₁₂, updateTo k c1 s = .ok s₁ ∧ updateTo k c2 s₁ = .ok s₁₂ ∧
      s₁₂.chips = s₂.chips ∧ s₁₂.alarms = s₂.alarms ∧ s₁₂.src = s₂.src

/-- The closed form of `CountEvents` for channel B, whose underflows have no consequence beyond their flag: counter,
toggle, start bit and flag after `n` count events. And the underflows of a running channel A that a reconciliation takes
are so many count events of a cascaded channel B, the flag set at the cycle of the underflow that first brings it to 0;
without them a cascaded channel B does not move (43_chip_timers.md R163, R164, R165, R175). -/
def Obligations.CountEventsClosedForm : Prop :=
  (∀ (s : State) (k n e0 P : Nat) (mode : ChanState), k < s.chips.length →
    (s.chip k).chanState .B = mode → mode = .runningCascade ∨ mode = .runningExt →
    (∀ r ∈ (s.chip k).lastRead, r.toNat < e0) → e0 + n * P < neverNat →
    let c := s.chip k
    let L := c.chanB.latch.toNat
    let f := max c.chanB.cnt.toNat 1
    let Q := max L 1
    let m := 1 + (n - f) / Q
    let flagged : Chip → State := fun c' => setFlag k 0x02 (BitVec.ofNat 32 (e0 + (f - 1) * P)) (s.setChip k c')
    countEvents k .B mode n e0 P s =
      (if n < f then s.setChip k { c with chanB := { c.chanB with cnt := BitVec.ofNat 16 (c.chanB.cnt.toNat - n) } }
       else if c.crb.getLsbD 3 then
         flagged { c with
           chanB := { c.chanB with cnt := c.chanB.latch, toggle := !c.chanB.toggle }
           crb := c.crb &&& 0xFE }
       else
         flagged { c with
           chanB := { c.chanB with
             cnt := BitVec.ofNat 16 (L - (n - f) % Q)
             toggle := if m % 2 = 1 then !c.chanB.toggle else c.chanB.toggle } })) ∧
  (∀ (s : State) (k : Nat) (c : Cycle), s.Inv → k < s.cfg.nchip → (s.chip k).rc ≤ c → c.toNat + 65538 < neverNat →
    (s.chip k).chanState .B = .runningCascade →
    ∃ t, updateTo k c s = .ok t ∧
      let chip := s.chip k
      let due := chip.chanState .A = .running ∧ chip.chanA.u ≤ c
      let b := chip.chanB
      let e0 := chip.chanA.u.toNat
      let P := chip.chanA.latch.toNat + 1
      let n := if chip.cra.getLsbD 3 then 1 else 1 + (c.toNat - e0) / P
      let f := max b.cnt.toNat 1
      let Q := max b.latch.toNat 1
      let m := 1 + (n - f) / Q
      let l := s.lineOf k
      (due → n < f →
        (t.chip k).chanB = { b with cnt := BitVec.ofNat 16 (b.cnt.toNat - n) } ∧ (t.chip k).crb = chip.crb ∧
        (t.chip k).flags.getLsbD 1 = chip.flags.getLsbD 1) ∧
      (due → f ≤ n →
        (t.chip k).chanB =
          (if chip.crb.getLsbD 3 then { b with cnt := b.latch, toggle := !b.toggle }
           else { b with
             cnt := BitVec.ofNat 16 (b.latch.toNat - (n - f) % Q)
             toggle := if m % 2 = 1 then !b.toggle else b.toggle }) ∧
        (t.chip k).crb = (if chip.crb.getLsbD 3 then chip.crb &&& 0xFE else chip.crb) ∧
        (t.chip k).flags.getLsbD 1 = true ∧
        (chip.mask = 0x02 → s.level l = false → t.lineClk l = BitVec.ofNat 32 (e0 + (f - 1) * P))) ∧
      (¬due → (t.chip k).chanB = b ∧ (t.chip k).crb = chip.crb ∧
        (t.chip k).flags.getLsbD 1 = chip.flags.getLsbD 1))

/-! ### The time of day (45_chip_tod.md) -/

/-- One tick of a valid time of day is the next tenth of a second, wrapping at midnight, and is again valid, hour 00, the
value after reset, among them; and the increment of any group inside the write masks stays inside them. The callback
of the tick alarm at cycle `T` stores the increment unless the clock is frozen, sets F_ALARM with cycle `T` where the
result equals the compare register, and arms the alarm one period after `T`; a dispatch so takes every tick whose cycle
has come, and no other (45_chip_tod.md R240, R241, R243, R244, R255; 41_alarm_scheduler.md R129, R134;
44_chip_icr_sdr_ports.md R210, R214). That the callback leaves `rc` alone is R243's, and the model's choice against R200
(DESIGN CHOICE, notes/assumptions/23.md). -/
def Obligations.TodIncIsNextTenth : Prop :=
  (∀ t : Tod, t.Valid → (todInc t).Valid ∧ (todInc t).sinceMidnight = (t.sinceMidnight + 1) % 864000) ∧
  (∀ t : Tod, t.Masked → (todInc t).Masked) ∧
  (∀ (s : State) (k : Nat) (T : Cycle), k < s.chips.length → T.toNat + s.cfg.todPeriod < neverNat →
    let c := s.chip k
    let won := s.cfg.readWins.getD k false = true ∧ c.lastRead = some T
    let ticked : Chip := { c with tod := todInc c.tod }
    let matched : Chip := { ticked with flags := c.flags ||| 0x04 }
    let raised : State :=
      { s with chips := s.chips.set k matched, src := s.src.set k (decide (matched.flags &&& c.mask &&& 0x0F ≠ 0)) }
    let l := s.lineOf k
    todTick k T s = .ok
      ((if c.todStopped = true then s
        else if todInc c.tod ≠ c.todAlarm ∨ won then { s with chips := s.chips.set k ticked }
        else if !s.level l && raised.level l then raised.setLineClk l T
        else raised).setAlarm (3 * k + 2) ⟨true, BitVec.ofNat 32 (T.toNat + s.cfg.todPeriod)⟩)) ∧
  (∀ (s s₁ : State) (k : Nat), s.Ready → k < s.cfg.nchip → DispatchedAs s s₁ →
    let c := s.chip k
    let T := (s.alarm (3 * k + 2)).target.toNat
    let m := if T ≤ s.clk.toNat then (s.clk.toNat - T) / s.cfg.todPeriod + 1 else 0
    let after : Nat → Tod := fun j => Nat.repeat todInc j c.tod
    s₁.alarm (3 * k + 2) = ⟨true, BitVec.ofNat 32 (T + m * s.cfg.todPeriod)⟩ ∧
    (s₁.chip k).tod = (if c.todStopped then c.tod else after m) ∧
    ((s₁.chip k).flags.getLsbD 2 = true ↔ c.flags.getLsbD 2 = true ∨
      (c.todStopped = false ∧ ∃ j < m, after (j + 1) = c.todAlarm ∧
        ¬(s.cfg.readWins.getD k false = true ∧ c.lastRead = some (BitVec.ofNat 32 (T + j * s.cfg.todPeriod))))))

/-- `CHIP_READ` of TOD10, TODSEC, TODMIN and TODHR returns from the held copy, or from a copy taken now; tenths
releases the copy, the others hold it; the clock itself and its freeze are untouched (45_chip_tod.md R245, R246,
R247, R248, R249). -/
def Obligations.TodReadsLatch : Prop :=
  ∀ (s : State) (k : Nat), s.Ready → k < s.cfg.nchip → ∃ s₂, AccessedAs s k s₂ ∧
    let c := s₂.chip k
    let view := if c.todLatched then c.todLatch else c.tod
    let result : Bool → Byte → Host.Outcome State Fault Refusal := fun held b => .next
      { s₂ with
        chips := s₂.chips.set k { c with todLatch := view, todLatched := held }
        status := 0, resp := b.setWidth 32, payloadOut := [] }
    exec (.chipReadTod10 k) s = result false view.tenths ∧
    exec (.chipReadTodsec k) s = result true view.seconds ∧
    exec (.chipReadTodmin k) s = result true view.minutes ∧
    exec (.chipReadTodhr k) s = result true view.hours

/-- `CHIP_WRITE` of TOD10, TODSEC, TODMIN and TODHR stores the masked byte in the compare register where `crb[7]` is
1, otherwise in the clock, where hours freezes it and tenths thaws it (45_chip_tod.md R240, R245, R250, R251, R252,
R253). -/
def Obligations.TodWritesStore : Prop :=
  ∀ (s : State) (k : Nat) (v : Byte), s.Ready → k < s.cfg.nchip → ∃ s₂, AccessedAs s k s₂ ∧
    let c := s₂.chip k
    let result : Chip → Host.Outcome State Fault Refusal := fun c' => .next
      { s₂ with chips := s₂.chips.set k c', status := 0, resp := 0, payloadOut := [] }
    (c.crb.getLsbD 7 = true →
      exec (.chipWriteTod10 k v) s = result { c with todAlarm := { c.todAlarm with tenths := v &&& 0x0F } } ∧
      exec (.chipWriteTodsec k v) s = result { c with todAlarm := { c.todAlarm with seconds := v &&& 0x7F } } ∧
      exec (.chipWriteTodmin k v) s = result { c with todAlarm := { c.todAlarm with minutes := v &&& 0x7F } } ∧
      exec (.chipWriteTodhr k v) s = result { c with todAlarm := { c.todAlarm with hours := v &&& 0x9F } }) ∧
    (c.crb.getLsbD 7 = false →
      exec (.chipWriteTod10 k v) s = result { c with tod := { c.tod with tenths := v &&& 0x0F }, todStopped := false } ∧
      exec (.chipWriteTodsec k v) s = result { c with tod := { c.tod with seconds := v &&& 0x7F } } ∧
      exec (.chipWriteTodmin k v) s = result { c with tod := { c.tod with minutes := v &&& 0x7F } } ∧
      exec (.chipWriteTodhr k v) s = result { c with tod := { c.tod with hours := v &&& 0x9F }, todStopped := true })

/-! ### The snapshot annex (46_snapshot.md) -/

/-- `SNAP_SAVE k` returns the 39 bytes of the payload layout and changes nothing beyond the opening
(46_snapshot.md R261, R262, R263). -/
def Obligations.SnapSaveLayout : Prop :=
  ∀ (s : State) (k : Nat), s.Ready → k < s.cfg.nchip → s.cfg.hasSnapshot = true → ∃ s₂ p, AccessedAs s k s₂ ∧
    exec (.snapSave k) s = .next { s₂ with status := 0, resp := 39, payloadOut := p } ∧
    let c := s₂.chip k
    let delta := (s₂.alarm (3 * k + 2)).target.toNat - s.clk.toNat
    p.length = 39 ∧ byteAt p 0 = s.cfg.snapMajor ∧ byteAt p 1 = s.cfg.snapMinor ∧
    byteAt p 2 = c.pra ∧ byteAt p 3 = c.prb ∧ byteAt p 4 = c.ddra ∧ byteAt p 5 = c.ddrb ∧
    p16 p 6 = c.chanA.cnt ∧ p16 p 8 = c.chanB.cnt ∧
    byteAt p 10 = c.tod.tenths ∧ byteAt p 11 = c.tod.seconds ∧ byteAt p 12 = c.tod.minutes ∧ byteAt p 13 = c.tod.hours ∧
    byteAt p 14 = c.todLatch.tenths ∧ byteAt p 15 = c.todLatch.seconds ∧ byteAt p 16 = c.todLatch.minutes ∧
    byteAt p 17 = c.todLatch.hours ∧
    byteAt p 18 = c.todAlarm.tenths ∧ byteAt p 19 = c.todAlarm.seconds ∧ byteAt p 20 = c.todAlarm.minutes ∧
    byteAt p 21 = c.todAlarm.hours ∧
    (byteAt p 22).toNat = c.todLatched.toNat + 2 * c.todStopped.toNat ∧
    byteAt p 23 = c.sdr ∧ byteAt p 24 = c.mask ∧ byteAt p 25 = c.cra ∧ byteAt p 26 = c.crb ∧
    p16 p 27 = c.chanA.latch ∧ p16 p 29 = c.chanB.latch ∧ byteAt p 31 = c.flags ∧
    (byteAt p 32).toNat = 64 * c.chanA.toggle.toNat + 128 * c.chanB.toggle.toNat ∧
    (byteAt p 33).toNat = c.srBits.toNat ∧
    (c.lastRead = none → byteAt p 34 = 0) ∧
    (∀ r, c.lastRead = some r → (byteAt p 34).toNat =
      (if s.clk.toNat - r.toNat > s.cfg.snapRdiMax then 0 else s.clk.toNat - r.toNat + s.cfg.snapRdiBias)) ∧
    (p32 p 35).toNat = delta ∧ 1 ≤ delta

/-- `SNAP_RESTORE k` of a payload of another length or version, or with a tick that does not fit, fails recoverably:
STATUS 5, RESP 0, nothing changed but the implicit dispatch (46_snapshot.md R266, R267; 60_exceptions.md R286). -/
def Obligations.SnapRestoreMalformed : Prop :=
  ∀ (s : State) (k : Nat), s.Ready → k < s.cfg.nchip → s.cfg.hasSnapshot = true →
    (s.payloadIn.length ≠ 39 ∨ byteAt s.payloadIn 0 ≠ s.cfg.snapMajor ∨ byteAt s.payloadIn 1 ≠ s.cfg.snapMinor ∨
      neverNat ≤ s.clk.toNat + max (p32 s.payloadIn 35).toNat 1) →
    ∃ s₁, DispatchedAs s s₁ ∧ s₁.fault = none ∧
      exec (.snapRestore k) s = .next { s₁ with status := 5, resp := 0, payloadOut := [] }

/-- `SNAP_RESTORE k` of a well-formed payload loads every field of the chip from its offset, masked, disarms the
chip's alarms and arms them again from the run states, and makes the source the summary; the input bytes stay
(46_snapshot.md R261, R263, R266, R268). -/
def Obligations.SnapRestoreLoads : Prop :=
  ∀ (s : State) (k : Nat), s.Ready → k < s.cfg.nchip → s.cfg.hasSnapshot = true →
    s.payloadIn.length = 39 → byteAt s.payloadIn 0 = s.cfg.snapMajor → byteAt s.payloadIn 1 = s.cfg.snapMinor →
    s.clk.toNat + max (p32 s.payloadIn 35).toNat 1 < neverNat →
    ∃ s₁, DispatchedAs s s₁ ∧
      let p := s.payloadIn
      let cra := byteAt p 25 &&& 0xEF
      let crb := byteAt p 26 &&& 0xEF
      let next : Channel → Byte → Count → Cycle := fun x ctl cnt =>
        if ctlState x ctl = .running then BitVec.ofNat 32 (s.clk.toNat + max cnt.toNat 1) else never
      let slot : Channel → Byte → Count → Alarm := fun x ctl cnt =>
        if ctlState x ctl = .running then ⟨true, next x ctl cnt⟩ else ⟨false, never⟩
      let rdi := (byteAt p 34).toNat
      let c : Chip :=
        { s₁.chip k with
          pra := byteAt p 2, prb := byteAt p 3, ddra := byteAt p 4, ddrb := byteAt p 5
          chanA := ⟨p16 p 27, p16 p 6, next .A cra (p16 p 6), (byteAt p 32).getLsbD 6⟩
          chanB := ⟨p16 p 29, p16 p 8, next .B crb (p16 p 8), (byteAt p 32).getLsbD 7⟩
          tod := ⟨byteAt p 10 &&& 0x0F, byteAt p 11 &&& 0x7F, byteAt p 12 &&& 0x7F, byteAt p 13 &&& 0x9F⟩
          todLatch := ⟨byteAt p 14 &&& 0x0F, byteAt p 15 &&& 0x7F, byteAt p 16 &&& 0x7F, byteAt p 17 &&& 0x9F⟩
          todAlarm := ⟨byteAt p 18 &&& 0x0F, byteAt p 19 &&& 0x7F, byteAt p 20 &&& 0x7F, byteAt p 21 &&& 0x9F⟩
          todLatched := (byteAt p 22).getLsbD 0, todStopped := (byteAt p 22).getLsbD 1
          sdr := byteAt p 23, mask := byteAt p 24 &&& 0x0F, cra := cra, crb := crb
          flags := byteAt p 31 &&& 0x0F
          srBits := BitVec.ofNat 5 (min (byteAt p 33).toNat 16)
          lastRead :=
            if rdi < s.cfg.snapRdiBias ∨ s.clk.toNat < rdi - s.cfg.snapRdiBias then none
            else some (BitVec.ofNat 32 (s.clk.toNat - (rdi - s.cfg.snapRdiBias)))
          rc := s.clk }
      exec (.snapRestore k) s = .next (State.answer
        (aggSet k (decide (c.flags &&& c.mask ≠ 0)) s.clk
          { s₁ with
            chips := s₁.chips.set k c
            alarms := ((s₁.alarms.set (3 * k) (slot .A cra (p16 p 6))).set (3 * k + 1) (slot .B crb (p16 p 8))).set
              (3 * k + 2) ⟨true, BitVec.ofNat 32 (s.clk.toNat + max (p32 p 35).toNat 1)⟩ })
        Reply.nothing)

/-- The round trip: restoring a saved payload at the same cycle changes nothing but the answer, where no running
channel has its next underflow beyond what its counter shows and the last flag read is young enough to be saved. The first
premise is R269's start-delay window, and shuts out a save at the cycle of a natural underflow too, of which R269 says
otherwise than R266: the model's choice (46_snapshot.md R266, R268, R269; DESIGN CHOICE, notes/assumptions/24.md). -/
def Obligations.SnapshotRoundTrip : Prop :=
  ∀ (s t : State) (k : Nat), s.Ready → k < s.cfg.nchip → s.cfg.hasSnapshot = true → exec (.snapSave k) s = .next t →
    (∀ x, (t.chip k).chanState x = .running →
      ((t.chip k).chan x).u.toNat = t.clk.toNat + max ((t.chip k).chan x).cnt.toNat 1) →
    (∀ r ∈ (t.chip k).lastRead, t.clk.toNat - r.toNat ≤ t.cfg.snapRdiMax) →
    exec (.snapRestore k) { t with payloadIn := t.payloadOut } = .next
      { t with payloadIn := t.payloadOut, status := 0, resp := 0, payloadOut := [] }

/-! ### Ownership (20_memory.md R73) -/

/-- With nothing due, an operation on chip `k` changes no field of another chip, no slot and no source that chip `k`
does not own, not the counter, not the processor's mask, and emits nothing (20_memory.md R73; 10_state.md R25, R26). -/
def Obligations.ChipOperationsAreIsolated : Prop :=
  ∀ (s t : State) (i : Instr) (k : Nat), i.chipOperand = some k → s.NoneDue → exec i s = .next t →
    (∀ j, j ≠ k → t.chip j = s.chip j) ∧
    (∀ a, a ≠ 3 * k → a ≠ 3 * k + 1 → a ≠ 3 * k + 2 → t.alarm a = s.alarm a) ∧
    (∀ n, n ≠ k → t.source n = s.source n) ∧
    t.cfg = s.cfg ∧ t.clk = s.clk ∧ t.cpuMasked = s.cpuMasked ∧ t.events = s.events ∧ t.port = s.port
end

