-- ==== Sys2Proof/Laws/Decode.lean ====
section
/-! SUPPORT. What each field of an assembled command word reads back as (30_encoding.md R80, R82). -/

namespace Sys2Proof

/-- The bits of an assembled word: `DATA`, then `SEL`, then `OP` (30_encoding.md R80). -/
theorem getLsbD_cmdWord (op sel : BitVec 8) (data : BitVec 32) (i : Nat) :
    (cmdWord op sel data).getLsbD i =
      if i < 32 then data.getLsbD i else if i - 32 < 8 then sel.getLsbD (i - 32) else op.getLsbD (i - 32 - 8) := by
  have h1 : (cmdWord op sel data).getLsbD i = if i < 32 then data.getLsbD i else (op ++ sel).getLsbD (i - 32) :=
    BitVec.getLsbD_append
  have h2 : (op ++ sel).getLsbD (i - 32) = if i - 32 < 8 then sel.getLsbD (i - 32) else op.getLsbD (i - 32 - 8) :=
    BitVec.getLsbD_append
  rw [h1, h2]

/-- The bits of a chip selector: the register index, then the chip number (30_encoding.md R80). -/
theorem getLsbD_selChipReg (k : Nat) (i : BitVec 4) (j : Nat) :
    (selChipReg k i).getLsbD j = if j < 4 then i.getLsbD j else (BitVec.ofNat 4 k).getLsbD (j - 4) :=
  BitVec.getLsbD_append

/-- The bits of a byte operand: the byte, then zeros (30_encoding.md R82, R90). -/
theorem getLsbD_dataOfByte (v : Byte) (j : Nat) :
    (dataOfByte v).getLsbD j = if j < 8 then v.getLsbD j else (0#24).getLsbD (j - 8) :=
  BitVec.getLsbD_append

theorem opField_cmdWord (op sel : BitVec 8) (data : BitVec 32) : opField (cmdWord op sel data) = op := by
  apply BitVec.eq_of_getLsbD_eq
  intro i hi
  have h3 : 40 + i - 32 - 8 = i := by omega
  simp only [opField, BitVec.getLsbD_extractLsb', getLsbD_cmdWord, h3]
  rw [if_neg (by omega), if_neg (by omega)]
  simp [hi]

theorem selField_cmdWord (op sel : BitVec 8) (data : BitVec 32) : selField (cmdWord op sel data) = sel := by
  apply BitVec.eq_of_getLsbD_eq
  intro i hi
  have h3 : 32 + i - 32 = i := by omega
  simp only [selField, BitVec.getLsbD_extractLsb', getLsbD_cmdWord, h3]
  rw [if_neg (by omega), if_pos hi]
  simp [hi]

theorem dataField_cmdWord (op sel : BitVec 8) (data : BitVec 32) : dataField (cmdWord op sel data) = data := by
  apply BitVec.eq_of_getLsbD_eq
  intro i hi
  simp only [dataField, BitVec.getLsbD_extractLsb', getLsbD_cmdWord, Nat.zero_add]
  rw [if_pos hi]
  simp [hi]

theorem selNumber_cmdWord (op : BitVec 8) (data : BitVec 32) {n : Nat} (h : selFits n) :
    selNumber (cmdWord op (selOfNumber n) data) = n := by
  rw [selNumber, selField_cmdWord, selOfNumber, BitVec.toNat_ofNat, Nat.mod_eq_of_lt h]

theorem chipNumber_cmdWord (op : BitVec 8) (data : BitVec 32) (i : BitVec 4) {k : Nat} (h : chipFits k) :
    chipNumber (cmdWord op (selChipReg k i) data) = k := by
  rw [chipNumber, selField_cmdWord]
  have : (selChipReg k i).extractLsb' 4 4 = BitVec.ofNat 4 k := by
    apply BitVec.eq_of_getLsbD_eq
    intro j hj
    have h2 : 4 + j - 4 = j := by omega
    simp only [BitVec.getLsbD_extractLsb', getLsbD_selChipReg, h2]
    rw [if_neg (by omega)]
    simp [hj]
  rw [this, BitVec.toNat_ofNat, Nat.mod_eq_of_lt h]

theorem regIndex_cmdWord (op : BitVec 8) (data : BitVec 32) (k : Nat) (i : BitVec 4) :
    regIndex (cmdWord op (selChipReg k i) data) = i := by
  rw [regIndex, selField_cmdWord]
  apply BitVec.eq_of_getLsbD_eq
  intro j hj
  simp only [BitVec.getLsbD_extractLsb', getLsbD_selChipReg, Nat.zero_add]
  rw [if_pos hj]
  simp [hj]

theorem selBit_selOfBit (op : BitVec 8) (data : BitVec 32) (b : Bool) :
    selBit (cmdWord op (selOfBit b) data) = b := by
  rw [selBit, selField_cmdWord, selOfBit]
  cases b <;> rfl

theorem selBit_selChipPort (op : BitVec 8) (data : BitVec 32) (k : Nat) (p : PortId) :
    selBit (cmdWord op (selChipPort k p) data) = p.bit := by
  rw [selBit, selField_cmdWord, selChipPort, getLsbD_selChipReg]
  cases p <;> rfl

theorem chipNumber_selChipPort (op : BitVec 8) (data : BitVec 32) (p : PortId) {k : Nat} (h : chipFits k) :
    chipNumber (cmdWord op (selChipPort k p) data) = k := chipNumber_cmdWord op data _ h

theorem chipNumber_selChip (op : BitVec 8) (data : BitVec 32) {k : Nat} (h : chipFits k) :
    chipNumber (cmdWord op (selChip k) data) = k := chipNumber_cmdWord op data _ h

theorem dataByte_dataOfByte (op sel : BitVec 8) (v : Byte) : dataByte (cmdWord op sel (dataOfByte v)) = v := by
  rw [dataByte, dataField_cmdWord]
  apply BitVec.eq_of_getLsbD_eq
  intro j hj
  simp only [BitVec.getLsbD_extractLsb', getLsbD_dataOfByte, Nat.zero_add]
  rw [if_pos hj]
  simp [hj]

theorem Line.ofBit_bit (l : Line) : Line.ofBit l.bit = l := by cases l <;> rfl

theorem PortId.ofBit_bit (p : PortId) : PortId.ofBit p.bit = p := by cases p <;> rfl

theorem Reg.ofIndex_index (r : Reg) : Reg.ofIndex r.index = r := by cases r <;> rfl

theorem Reg.index_ofIndex (i : BitVec 4) : (Reg.ofIndex i).index = i := by
  revert i
  decide

end Sys2Proof
end

