-- ==== Sys2Proof/Laws/State.lean ====
section
/-! SUPPORT. The small lemmas of the state: for each update of it one lemma per field it leaves alone, each true by
`rfl`, and what the accessors read after an update. -/

namespace Sys2Proof.Machine

variable (s : State)

/-! ### `State.setChip` -/

@[simp] theorem State.setChip_cfg (k : Nat) (c : Chip) : (s.setChip k c).cfg = s.cfg := rfl
@[simp] theorem State.setChip_clk (k : Nat) (c : Chip) : (s.setChip k c).clk = s.clk := rfl
@[simp] theorem State.setChip_alarms (k : Nat) (c : Chip) : (s.setChip k c).alarms = s.alarms := rfl
@[simp] theorem State.setChip_src (k : Nat) (c : Chip) : (s.setChip k c).src = s.src := rfl
@[simp] theorem State.setChip_lineClkMaskable (k : Nat) (c : Chip) : (s.setChip k c).lineClkMaskable = s.lineClkMaskable := rfl
@[simp] theorem State.setChip_lineClkUrgent (k : Nat) (c : Chip) : (s.setChip k c).lineClkUrgent = s.lineClkUrgent := rfl
@[simp] theorem State.setChip_cpuMasked (k : Nat) (c : Chip) : (s.setChip k c).cpuMasked = s.cpuMasked := rfl
@[simp] theorem State.setChip_fault (k : Nat) (c : Chip) : (s.setChip k c).fault = s.fault := rfl
@[simp] theorem State.setChip_port (k : Nat) (c : Chip) : (s.setChip k c).port = s.port := rfl
@[simp] theorem State.setChip_payloadIn (k : Nat) (c : Chip) : (s.setChip k c).payloadIn = s.payloadIn := rfl
@[simp] theorem State.setChip_status (k : Nat) (c : Chip) : (s.setChip k c).status = s.status := rfl
@[simp] theorem State.setChip_resp (k : Nat) (c : Chip) : (s.setChip k c).resp = s.resp := rfl
@[simp] theorem State.setChip_payloadOut (k : Nat) (c : Chip) : (s.setChip k c).payloadOut = s.payloadOut := rfl
@[simp] theorem State.setChip_events (k : Nat) (c : Chip) : (s.setChip k c).events = s.events := rfl
@[simp] theorem State.setChip_draws (k : Nat) (c : Chip) : (s.setChip k c).draws = s.draws := rfl

/-! ### `State.setChan` -/

@[simp] theorem State.setChan_cfg (k : Nat) (x : Channel) (ch : Chan) : (s.setChan k x ch).cfg = s.cfg := rfl
@[simp] theorem State.setChan_clk (k : Nat) (x : Channel) (ch : Chan) : (s.setChan k x ch).clk = s.clk := rfl
@[simp] theorem State.setChan_alarms (k : Nat) (x : Channel) (ch : Chan) : (s.setChan k x ch).alarms = s.alarms := rfl
@[simp] theorem State.setChan_src (k : Nat) (x : Channel) (ch : Chan) : (s.setChan k x ch).src = s.src := rfl
@[simp] theorem State.setChan_lineClkMaskable (k : Nat) (x : Channel) (ch : Chan) : (s.setChan k x ch).lineClkMaskable = s.lineClkMaskable := rfl
@[simp] theorem State.setChan_lineClkUrgent (k : Nat) (x : Channel) (ch : Chan) : (s.setChan k x ch).lineClkUrgent = s.lineClkUrgent := rfl
@[simp] theorem State.setChan_cpuMasked (k : Nat) (x : Channel) (ch : Chan) : (s.setChan k x ch).cpuMasked = s.cpuMasked := rfl
@[simp] theorem State.setChan_fault (k : Nat) (x : Channel) (ch : Chan) : (s.setChan k x ch).fault = s.fault := rfl
@[simp] theorem State.setChan_port (k : Nat) (x : Channel) (ch : Chan) : (s.setChan k x ch).port = s.port := rfl
@[simp] theorem State.setChan_payloadIn (k : Nat) (x : Channel) (ch : Chan) : (s.setChan k x ch).payloadIn = s.payloadIn := rfl
@[simp] theorem State.setChan_status (k : Nat) (x : Channel) (ch : Chan) : (s.setChan k x ch).status = s.status := rfl
@[simp] theorem State.setChan_resp (k : Nat) (x : Channel) (ch : Chan) : (s.setChan k x ch).resp = s.resp := rfl
@[simp] theorem State.setChan_payloadOut (k : Nat) (x : Channel) (ch : Chan) : (s.setChan k x ch).payloadOut = s.payloadOut := rfl
@[simp] theorem State.setChan_events (k : Nat) (x : Channel) (ch : Chan) : (s.setChan k x ch).events = s.events := rfl
@[simp] theorem State.setChan_draws (k : Nat) (x : Channel) (ch : Chan) : (s.setChan k x ch).draws = s.draws := rfl

/-! ### `State.setCtl` -/

@[simp] theorem State.setCtl_cfg (k : Nat) (x : Channel) (v : Byte) : (s.setCtl k x v).cfg = s.cfg := rfl
@[simp] theorem State.setCtl_clk (k : Nat) (x : Channel) (v : Byte) : (s.setCtl k x v).clk = s.clk := rfl
@[simp] theorem State.setCtl_alarms (k : Nat) (x : Channel) (v : Byte) : (s.setCtl k x v).alarms = s.alarms := rfl
@[simp] theorem State.setCtl_src (k : Nat) (x : Channel) (v : Byte) : (s.setCtl k x v).src = s.src := rfl
@[simp] theorem State.setCtl_lineClkMaskable (k : Nat) (x : Channel) (v : Byte) : (s.setCtl k x v).lineClkMaskable = s.lineClkMaskable := rfl
@[simp] theorem State.setCtl_lineClkUrgent (k : Nat) (x : Channel) (v : Byte) : (s.setCtl k x v).lineClkUrgent = s.lineClkUrgent := rfl
@[simp] theorem State.setCtl_cpuMasked (k : Nat) (x : Channel) (v : Byte) : (s.setCtl k x v).cpuMasked = s.cpuMasked := rfl
@[simp] theorem State.setCtl_fault (k : Nat) (x : Channel) (v : Byte) : (s.setCtl k x v).fault = s.fault := rfl
@[simp] theorem State.setCtl_port (k : Nat) (x : Channel) (v : Byte) : (s.setCtl k x v).port = s.port := rfl
@[simp] theorem State.setCtl_payloadIn (k : Nat) (x : Channel) (v : Byte) : (s.setCtl k x v).payloadIn = s.payloadIn := rfl
@[simp] theorem State.setCtl_status (k : Nat) (x : Channel) (v : Byte) : (s.setCtl k x v).status = s.status := rfl
@[simp] theorem State.setCtl_resp (k : Nat) (x : Channel) (v : Byte) : (s.setCtl k x v).resp = s.resp := rfl
@[simp] theorem State.setCtl_payloadOut (k : Nat) (x : Channel) (v : Byte) : (s.setCtl k x v).payloadOut = s.payloadOut := rfl
@[simp] theorem State.setCtl_events (k : Nat) (x : Channel) (v : Byte) : (s.setCtl k x v).events = s.events := rfl
@[simp] theorem State.setCtl_draws (k : Nat) (x : Channel) (v : Byte) : (s.setCtl k x v).draws = s.draws := rfl

/-! ### `State.setAlarm` -/

@[simp] theorem State.setAlarm_cfg (a : Nat) (al : Alarm) : (s.setAlarm a al).cfg = s.cfg := rfl
@[simp] theorem State.setAlarm_clk (a : Nat) (al : Alarm) : (s.setAlarm a al).clk = s.clk := rfl
@[simp] theorem State.setAlarm_src (a : Nat) (al : Alarm) : (s.setAlarm a al).src = s.src := rfl
@[simp] theorem State.setAlarm_lineClkMaskable (a : Nat) (al : Alarm) : (s.setAlarm a al).lineClkMaskable = s.lineClkMaskable := rfl
@[simp] theorem State.setAlarm_lineClkUrgent (a : Nat) (al : Alarm) : (s.setAlarm a al).lineClkUrgent = s.lineClkUrgent := rfl
@[simp] theorem State.setAlarm_cpuMasked (a : Nat) (al : Alarm) : (s.setAlarm a al).cpuMasked = s.cpuMasked := rfl
@[simp] theorem State.setAlarm_chips (a : Nat) (al : Alarm) : (s.setAlarm a al).chips = s.chips := rfl
@[simp] theorem State.setAlarm_fault (a : Nat) (al : Alarm) : (s.setAlarm a al).fault = s.fault := rfl
@[simp] theorem State.setAlarm_port (a : Nat) (al : Alarm) : (s.setAlarm a al).port = s.port := rfl
@[simp] theorem State.setAlarm_payloadIn (a : Nat) (al : Alarm) : (s.setAlarm a al).payloadIn = s.payloadIn := rfl
@[simp] theorem State.setAlarm_status (a : Nat) (al : Alarm) : (s.setAlarm a al).status = s.status := rfl
@[simp] theorem State.setAlarm_resp (a : Nat) (al : Alarm) : (s.setAlarm a al).resp = s.resp := rfl
@[simp] theorem State.setAlarm_payloadOut (a : Nat) (al : Alarm) : (s.setAlarm a al).payloadOut = s.payloadOut := rfl
@[simp] theorem State.setAlarm_events (a : Nat) (al : Alarm) : (s.setAlarm a al).events = s.events := rfl
@[simp] theorem State.setAlarm_draws (a : Nat) (al : Alarm) : (s.setAlarm a al).draws = s.draws := rfl

/-! ### `State.setSource` -/

@[simp] theorem State.setSource_cfg (n : Nat) (b : Bool) : (s.setSource n b).cfg = s.cfg := rfl
@[simp] theorem State.setSource_clk (n : Nat) (b : Bool) : (s.setSource n b).clk = s.clk := rfl
@[simp] theorem State.setSource_alarms (n : Nat) (b : Bool) : (s.setSource n b).alarms = s.alarms := rfl
@[simp] theorem State.setSource_lineClkMaskable (n : Nat) (b : Bool) : (s.setSource n b).lineClkMaskable = s.lineClkMaskable := rfl
@[simp] theorem State.setSource_lineClkUrgent (n : Nat) (b : Bool) : (s.setSource n b).lineClkUrgent = s.lineClkUrgent := rfl
@[simp] theorem State.setSource_cpuMasked (n : Nat) (b : Bool) : (s.setSource n b).cpuMasked = s.cpuMasked := rfl
@[simp] theorem State.setSource_chips (n : Nat) (b : Bool) : (s.setSource n b).chips = s.chips := rfl
@[simp] theorem State.setSource_fault (n : Nat) (b : Bool) : (s.setSource n b).fault = s.fault := rfl
@[simp] theorem State.setSource_port (n : Nat) (b : Bool) : (s.setSource n b).port = s.port := rfl
@[simp] theorem State.setSource_payloadIn (n : Nat) (b : Bool) : (s.setSource n b).payloadIn = s.payloadIn := rfl
@[simp] theorem State.setSource_status (n : Nat) (b : Bool) : (s.setSource n b).status = s.status := rfl
@[simp] theorem State.setSource_resp (n : Nat) (b : Bool) : (s.setSource n b).resp = s.resp := rfl
@[simp] theorem State.setSource_payloadOut (n : Nat) (b : Bool) : (s.setSource n b).payloadOut = s.payloadOut := rfl
@[simp] theorem State.setSource_events (n : Nat) (b : Bool) : (s.setSource n b).events = s.events := rfl
@[simp] theorem State.setSource_draws (n : Nat) (b : Bool) : (s.setSource n b).draws = s.draws := rfl

/-! ### `State.answer` -/

@[simp] theorem State.answer_cfg (r : Reply) : (s.answer r).cfg = s.cfg := rfl
@[simp] theorem State.answer_clk (r : Reply) : (s.answer r).clk = s.clk := rfl
@[simp] theorem State.answer_alarms (r : Reply) : (s.answer r).alarms = s.alarms := rfl
@[simp] theorem State.answer_src (r : Reply) : (s.answer r).src = s.src := rfl
@[simp] theorem State.answer_lineClkMaskable (r : Reply) : (s.answer r).lineClkMaskable = s.lineClkMaskable := rfl
@[simp] theorem State.answer_lineClkUrgent (r : Reply) : (s.answer r).lineClkUrgent = s.lineClkUrgent := rfl
@[simp] theorem State.answer_cpuMasked (r : Reply) : (s.answer r).cpuMasked = s.cpuMasked := rfl
@[simp] theorem State.answer_chips (r : Reply) : (s.answer r).chips = s.chips := rfl
@[simp] theorem State.answer_fault (r : Reply) : (s.answer r).fault = s.fault := rfl
@[simp] theorem State.answer_port (r : Reply) : (s.answer r).port = s.port := rfl
@[simp] theorem State.answer_payloadIn (r : Reply) : (s.answer r).payloadIn = s.payloadIn := rfl
@[simp] theorem State.answer_events (r : Reply) : (s.answer r).events = s.events := rfl
@[simp] theorem State.answer_draws (r : Reply) : (s.answer r).draws = s.draws := rfl

@[simp] theorem State.answer_status (r : Reply) : (s.answer r).status = r.status := rfl
@[simp] theorem State.answer_resp (r : Reply) : (s.answer r).resp = r.resp := rfl
@[simp] theorem State.answer_payloadOut (r : Reply) : (s.answer r).payloadOut = r.payload := rfl

/-! ### `State.setLineClk` -/

@[simp] theorem State.setLineClk_cfg (l : Line) (c : Cycle) : (s.setLineClk l c).cfg = s.cfg := by cases l <;> rfl
@[simp] theorem State.setLineClk_clk (l : Line) (c : Cycle) : (s.setLineClk l c).clk = s.clk := by cases l <;> rfl
@[simp] theorem State.setLineClk_alarms (l : Line) (c : Cycle) : (s.setLineClk l c).alarms = s.alarms := by cases l <;> rfl
@[simp] theorem State.setLineClk_src (l : Line) (c : Cycle) : (s.setLineClk l c).src = s.src := by cases l <;> rfl
@[simp] theorem State.setLineClk_cpuMasked (l : Line) (c : Cycle) : (s.setLineClk l c).cpuMasked = s.cpuMasked := by cases l <;> rfl
@[simp] theorem State.setLineClk_chips (l : Line) (c : Cycle) : (s.setLineClk l c).chips = s.chips := by cases l <;> rfl
@[simp] theorem State.setLineClk_fault (l : Line) (c : Cycle) : (s.setLineClk l c).fault = s.fault := by cases l <;> rfl
@[simp] theorem State.setLineClk_port (l : Line) (c : Cycle) : (s.setLineClk l c).port = s.port := by cases l <;> rfl
@[simp] theorem State.setLineClk_payloadIn (l : Line) (c : Cycle) : (s.setLineClk l c).payloadIn = s.payloadIn := by cases l <;> rfl
@[simp] theorem State.setLineClk_status (l : Line) (c : Cycle) : (s.setLineClk l c).status = s.status := by cases l <;> rfl
@[simp] theorem State.setLineClk_resp (l : Line) (c : Cycle) : (s.setLineClk l c).resp = s.resp := by cases l <;> rfl
@[simp] theorem State.setLineClk_payloadOut (l : Line) (c : Cycle) : (s.setLineClk l c).payloadOut = s.payloadOut := by cases l <;> rfl
@[simp] theorem State.setLineClk_events (l : Line) (c : Cycle) : (s.setLineClk l c).events = s.events := by cases l <;> rfl
@[simp] theorem State.setLineClk_draws (l : Line) (c : Cycle) : (s.setLineClk l c).draws = s.draws := by cases l <;> rfl

/-! ### `emit` -/

@[simp] theorem emit_cfg (e : Event) : (emit e s).cfg = s.cfg := rfl
@[simp] theorem emit_clk (e : Event) : (emit e s).clk = s.clk := rfl
@[simp] theorem emit_alarms (e : Event) : (emit e s).alarms = s.alarms := rfl
@[simp] theorem emit_src (e : Event) : (emit e s).src = s.src := rfl
@[simp] theorem emit_lineClkMaskable (e : Event) : (emit e s).lineClkMaskable = s.lineClkMaskable := rfl
@[simp] theorem emit_lineClkUrgent (e : Event) : (emit e s).lineClkUrgent = s.lineClkUrgent := rfl
@[simp] theorem emit_cpuMasked (e : Event) : (emit e s).cpuMasked = s.cpuMasked := rfl
@[simp] theorem emit_chips (e : Event) : (emit e s).chips = s.chips := rfl
@[simp] theorem emit_fault (e : Event) : (emit e s).fault = s.fault := rfl
@[simp] theorem emit_port (e : Event) : (emit e s).port = s.port := rfl
@[simp] theorem emit_payloadIn (e : Event) : (emit e s).payloadIn = s.payloadIn := rfl
@[simp] theorem emit_status (e : Event) : (emit e s).status = s.status := rfl
@[simp] theorem emit_resp (e : Event) : (emit e s).resp = s.resp := rfl
@[simp] theorem emit_payloadOut (e : Event) : (emit e s).payloadOut = s.payloadOut := rfl
@[simp] theorem emit_draws (e : Event) : (emit e s).draws = s.draws := rfl
@[simp] theorem emit_events (e : Event) : (emit e s).events = s.events ++ [e] := rfl

/-! ### `takeFault` and `refuseIn` -/

@[simp] theorem takeFault_cfg (e : FaultCode) : (takeFault e s).cfg = s.cfg := rfl
@[simp] theorem takeFault_clk (e : FaultCode) : (takeFault e s).clk = s.clk := rfl
@[simp] theorem takeFault_alarms (e : FaultCode) : (takeFault e s).alarms = s.alarms := rfl
@[simp] theorem takeFault_src (e : FaultCode) : (takeFault e s).src = s.src := rfl
@[simp] theorem takeFault_lineClkMaskable (e : FaultCode) : (takeFault e s).lineClkMaskable = s.lineClkMaskable := rfl
@[simp] theorem takeFault_lineClkUrgent (e : FaultCode) : (takeFault e s).lineClkUrgent = s.lineClkUrgent := rfl
@[simp] theorem takeFault_cpuMasked (e : FaultCode) : (takeFault e s).cpuMasked = s.cpuMasked := rfl
@[simp] theorem takeFault_chips (e : FaultCode) : (takeFault e s).chips = s.chips := rfl
@[simp] theorem takeFault_port (e : FaultCode) : (takeFault e s).port = s.port := rfl
@[simp] theorem takeFault_payloadIn (e : FaultCode) : (takeFault e s).payloadIn = s.payloadIn := rfl
@[simp] theorem takeFault_events (e : FaultCode) : (takeFault e s).events = s.events := rfl
@[simp] theorem takeFault_draws (e : FaultCode) : (takeFault e s).draws = s.draws := rfl
@[simp] theorem takeFault_fault (e : FaultCode) : (takeFault e s).fault = some e := rfl
@[simp] theorem takeFault_status (e : FaultCode) : (takeFault e s).status = e.code := rfl
@[simp] theorem takeFault_resp (e : FaultCode) : (takeFault e s).resp = 0 := rfl
@[simp] theorem takeFault_payloadOut (e : FaultCode) : (takeFault e s).payloadOut = [] := rfl
@[simp] theorem refuseIn_fault (e : FaultCode) : (refuseIn e s).fault = s.fault := rfl
@[simp] theorem refuseIn_status (e : FaultCode) : (refuseIn e s).status = e.code := rfl
@[simp] theorem refuseIn_resp (e : FaultCode) : (refuseIn e s).resp = 0 := rfl

/-! ### Replies -/

@[simp] theorem Reply.value_status (v : BitVec 32) : (Reply.value v).status = 0 := rfl
@[simp] theorem Reply.value_resp (v : BitVec 32) : (Reply.value v).resp = v := rfl
@[simp] theorem Reply.value_payload (v : BitVec 32) : (Reply.value v).payload = [] := rfl
@[simp] theorem Reply.nothing_status : Reply.nothing.status = 0 := rfl
@[simp] theorem Reply.nothing_resp : Reply.nothing.resp = 0 := rfl
@[simp] theorem Reply.byte_status (v : Byte) : (Reply.byte v).status = 0 := rfl
@[simp] theorem Reply.byte_resp (v : Byte) : (Reply.byte v).resp = v.setWidth 32 := rfl
@[simp] theorem Reply.failed_status (v : Byte) : (Reply.failed v).status = v := rfl
@[simp] theorem Reply.failed_resp (v : Byte) : (Reply.failed v).resp = 0 := rfl

/-! ### Reading a chip after an update -/

@[simp] theorem State.chips_setChip (k : Nat) (c : Chip) : (s.setChip k c).chips = s.chips.set k c := rfl

theorem State.chip_setChip_self {k : Nat} (c : Chip) (h : k < s.chips.length) : (s.setChip k c).chip k = c := by
  simp [State.chip, State.setChip, List.getD_eq_getElem?_getD, h]

@[simp] theorem State.chip_setChip_ne {j k : Nat} (c : Chip) (h : j ≠ k) : (s.setChip k c).chip j = s.chip j := by
  simp [State.chip, State.setChip, List.getD_eq_getElem?_getD, List.getElem?_set_ne h.symm]

@[simp] theorem State.chip_setAlarm (a : Nat) (al : Alarm) (j : Nat) : (s.setAlarm a al).chip j = s.chip j := rfl
@[simp] theorem State.chip_setSource (n : Nat) (b : Bool) (j : Nat) : (s.setSource n b).chip j = s.chip j := rfl
@[simp] theorem State.chip_answer (r : Reply) (j : Nat) : (s.answer r).chip j = s.chip j := rfl
@[simp] theorem State.chip_emit (e : Event) (j : Nat) : (emit e s).chip j = s.chip j := rfl
@[simp] theorem State.chip_setLineClk (l : Line) (c : Cycle) (j : Nat) : (s.setLineClk l c).chip j = s.chip j := by
  cases l <;> rfl

theorem State.setChip_setChip (k : Nat) (c d : Chip) : (s.setChip k c).setChip k d = s.setChip k d := by
  simp [State.setChip]

theorem State.setChip_chip_self {k : Nat} (h : k < s.chips.length) : s.setChip k (s.chip k) = s := by
  have : s.chips.set k (s.chips.getD k Chip.absent) = s.chips := by
    apply List.ext_getElem? ; intro i
    by_cases hi : i = k
    · subst hi; simp [h]
    · simp [List.getElem?_set_ne (Ne.symm hi)]
  unfold State.setChip State.chip; rw [this]

/-! ### Reading a slot after an update -/

theorem State.alarm_setAlarm_self {a : Nat} (al : Alarm) (h : a < s.alarms.length) : (s.setAlarm a al).alarm a = al := by
  simp [State.alarm, State.setAlarm, List.getD_eq_getElem?_getD, h]

@[simp] theorem State.alarm_setAlarm_ne {b a : Nat} (al : Alarm) (h : b ≠ a) : (s.setAlarm a al).alarm b = s.alarm b := by
  simp [State.alarm, State.setAlarm, List.getD_eq_getElem?_getD, List.getElem?_set_ne h.symm]

@[simp] theorem State.alarm_setChip (k : Nat) (c : Chip) (a : Nat) : (s.setChip k c).alarm a = s.alarm a := rfl
@[simp] theorem State.alarm_setChan (k : Nat) (x : Channel) (c : Chan) (a : Nat) :
    (s.setChan k x c).alarm a = s.alarm a := rfl
@[simp] theorem State.alarm_setCtl (k : Nat) (x : Channel) (v : Byte) (a : Nat) :
    (s.setCtl k x v).alarm a = s.alarm a := rfl
@[simp] theorem State.alarm_setSource (n : Nat) (b : Bool) (a : Nat) : (s.setSource n b).alarm a = s.alarm a := rfl
@[simp] theorem State.alarm_answer (r : Reply) (a : Nat) : (s.answer r).alarm a = s.alarm a := rfl
@[simp] theorem State.alarm_emit (e : Event) (a : Nat) : (emit e s).alarm a = s.alarm a := rfl
@[simp] theorem State.alarm_setLineClk (l : Line) (c : Cycle) (a : Nat) : (s.setLineClk l c).alarm a = s.alarm a := by
  cases l <;> rfl

/-! ### Reading a source or a line stamp after an update -/

theorem State.source_setSource_self {n : Nat} (b : Bool) (h : n < s.src.length) : (s.setSource n b).source n = b := by
  simp [State.source, State.setSource, List.getD_eq_getElem?_getD, h]

@[simp] theorem State.source_setSource_ne {m n : Nat} (b : Bool) (h : m ≠ n) :
    (s.setSource n b).source m = s.source m := by
  simp [State.source, State.setSource, List.getD_eq_getElem?_getD, List.getElem?_set_ne h.symm]

@[simp] theorem State.source_setChip (k : Nat) (c : Chip) (n : Nat) : (s.setChip k c).source n = s.source n := rfl
@[simp] theorem State.source_setAlarm (a : Nat) (al : Alarm) (n : Nat) : (s.setAlarm a al).source n = s.source n := rfl
@[simp] theorem State.source_emit (e : Event) (n : Nat) : (emit e s).source n = s.source n := rfl
@[simp] theorem State.source_setLineClk (l : Line) (c : Cycle) (n : Nat) :
    (s.setLineClk l c).source n = s.source n := by cases l <;> rfl

@[simp] theorem State.lineOf_setSource (n : Nat) (b : Bool) (m : Nat) : (s.setSource n b).lineOf m = s.lineOf m := rfl

@[simp] theorem State.lineClk_setLineClk_self (l : Line) (c : Cycle) : (s.setLineClk l c).lineClk l = c := by
  cases l <;> rfl

@[simp] theorem State.lineClk_setLineClk_ne {l m : Line} (c : Cycle) (h : m ≠ l) :
    (s.setLineClk l c).lineClk m = s.lineClk m := by
  cases l <;> cases m <;> first | rfl | exact absurd rfl h

@[simp] theorem State.lineClk_setChip (k : Nat) (c : Chip) (l : Line) : (s.setChip k c).lineClk l = s.lineClk l := by
  cases l <;> rfl
@[simp] theorem State.lineClk_setAlarm (a : Nat) (al : Alarm) (l : Line) : (s.setAlarm a al).lineClk l = s.lineClk l := by
  cases l <;> rfl
@[simp] theorem State.lineClk_setSource (n : Nat) (b : Bool) (l : Line) : (s.setSource n b).lineClk l = s.lineClk l := by
  cases l <;> rfl

@[simp] theorem State.level_setChip (k : Nat) (c : Chip) (l : Line) : (s.setChip k c).level l = s.level l := rfl
@[simp] theorem State.level_setAlarm (a : Nat) (al : Alarm) (l : Line) : (s.setAlarm a al).level l = s.level l := rfl
@[simp] theorem State.level_answer (r : Reply) (l : Line) : (s.answer r).level l = s.level l := rfl

/-- A line is high exactly when some source on it is asserted (42_interrupt_aggregator.md R141). -/
theorem State.level_eq_true_iff (l : Line) :
    s.level l = true ↔ ∃ n < s.cfg.nSources, s.lineOf n = l ∧ s.source n = true := by
  simp [State.level, and_comm]

/-! ### Channels of a chip -/

@[simp] theorem Chip.chan_setChan (c : Chip) (x : Channel) (ch : Chan) : (c.setChan x ch).chan x = ch := by
  cases x <;> rfl
@[simp] theorem Chip.chan_setChan_ne (c : Chip) {x y : Channel} (ch : Chan) (h : y ≠ x) :
    (c.setChan x ch).chan y = c.chan y := by cases x <;> cases y <;> first | rfl | exact absurd rfl h
@[simp] theorem Chip.ctl_setCtl (c : Chip) (x : Channel) (v : Byte) : (c.setCtl x v).ctl x = v := by cases x <;> rfl
@[simp] theorem Chip.ctl_setCtl_ne (c : Chip) {x y : Channel} (v : Byte) (h : y ≠ x) :
    (c.setCtl x v).ctl y = c.ctl y := by cases x <;> cases y <;> first | rfl | exact absurd rfl h
@[simp] theorem Chip.ctl_setChan (c : Chip) (x y : Channel) (ch : Chan) : (c.setChan x ch).ctl y = c.ctl y := by
  cases x <;> cases y <;> rfl
@[simp] theorem Chip.chan_setCtl (c : Chip) (x y : Channel) (v : Byte) : (c.setCtl x v).chan y = c.chan y := by
  cases x <;> cases y <;> rfl
@[simp] theorem Chip.setChan_mask (c : Chip) (x : Channel) (ch : Chan) : (c.setChan x ch).mask = c.mask := by cases x <;> rfl
@[simp] theorem Chip.setCtl_mask (c : Chip) (x : Channel) (v : Byte) : (c.setCtl x v).mask = c.mask := by cases x <;> rfl
@[simp] theorem Chip.setChan_flags (c : Chip) (x : Channel) (ch : Chan) : (c.setChan x ch).flags = c.flags := by cases x <;> rfl
@[simp] theorem Chip.setCtl_flags (c : Chip) (x : Channel) (v : Byte) : (c.setCtl x v).flags = c.flags := by cases x <;> rfl
@[simp] theorem Chip.setChan_lastRead (c : Chip) (x : Channel) (ch : Chan) : (c.setChan x ch).lastRead = c.lastRead := by cases x <;> rfl
@[simp] theorem Chip.setCtl_lastRead (c : Chip) (x : Channel) (v : Byte) : (c.setCtl x v).lastRead = c.lastRead := by cases x <;> rfl
@[simp] theorem Chip.setChan_sdr (c : Chip) (x : Channel) (ch : Chan) : (c.setChan x ch).sdr = c.sdr := by cases x <;> rfl
@[simp] theorem Chip.setCtl_sdr (c : Chip) (x : Channel) (v : Byte) : (c.setCtl x v).sdr = c.sdr := by cases x <;> rfl
@[simp] theorem Chip.setChan_srBits (c : Chip) (x : Channel) (ch : Chan) : (c.setChan x ch).srBits = c.srBits := by cases x <;> rfl
@[simp] theorem Chip.setCtl_srBits (c : Chip) (x : Channel) (v : Byte) : (c.setCtl x v).srBits = c.srBits := by cases x <;> rfl
@[simp] theorem Chip.setChan_tod (c : Chip) (x : Channel) (ch : Chan) : (c.setChan x ch).tod = c.tod := by cases x <;> rfl
@[simp] theorem Chip.setCtl_tod (c : Chip) (x : Channel) (v : Byte) : (c.setCtl x v).tod = c.tod := by cases x <;> rfl
@[simp] theorem Chip.setChan_todAlarm (c : Chip) (x : Channel) (ch : Chan) : (c.setChan x ch).todAlarm = c.todAlarm := by cases x <;> rfl
@[simp] theorem Chip.setCtl_todAlarm (c : Chip) (x : Channel) (v : Byte) : (c.setCtl x v).todAlarm = c.todAlarm := by cases x <;> rfl
@[simp] theorem Chip.setChan_todLatch (c : Chip) (x : Channel) (ch : Chan) : (c.setChan x ch).todLatch = c.todLatch := by cases x <;> rfl
@[simp] theorem Chip.setCtl_todLatch (c : Chip) (x : Channel) (v : Byte) : (c.setCtl x v).todLatch = c.todLatch := by cases x <;> rfl
@[simp] theorem Chip.setChan_todStopped (c : Chip) (x : Channel) (ch : Chan) : (c.setChan x ch).todStopped = c.todStopped := by cases x <;> rfl
@[simp] theorem Chip.setCtl_todStopped (c : Chip) (x : Channel) (v : Byte) : (c.setCtl x v).todStopped = c.todStopped := by cases x <;> rfl
@[simp] theorem Chip.setChan_todLatched (c : Chip) (x : Channel) (ch : Chan) : (c.setChan x ch).todLatched = c.todLatched := by cases x <;> rfl
@[simp] theorem Chip.setCtl_todLatched (c : Chip) (x : Channel) (v : Byte) : (c.setCtl x v).todLatched = c.todLatched := by cases x <;> rfl
@[simp] theorem Chip.setChan_pra (c : Chip) (x : Channel) (ch : Chan) : (c.setChan x ch).pra = c.pra := by cases x <;> rfl
@[simp] theorem Chip.setCtl_pra (c : Chip) (x : Channel) (v : Byte) : (c.setCtl x v).pra = c.pra := by cases x <;> rfl
@[simp] theorem Chip.setChan_prb (c : Chip) (x : Channel) (ch : Chan) : (c.setChan x ch).prb = c.prb := by cases x <;> rfl
@[simp] theorem Chip.setCtl_prb (c : Chip) (x : Channel) (v : Byte) : (c.setCtl x v).prb = c.prb := by cases x <;> rfl
@[simp] theorem Chip.setChan_ddra (c : Chip) (x : Channel) (ch : Chan) : (c.setChan x ch).ddra = c.ddra := by cases x <;> rfl
@[simp] theorem Chip.setCtl_ddra (c : Chip) (x : Channel) (v : Byte) : (c.setCtl x v).ddra = c.ddra := by cases x <;> rfl
@[simp] theorem Chip.setChan_ddrb (c : Chip) (x : Channel) (ch : Chan) : (c.setChan x ch).ddrb = c.ddrb := by cases x <;> rfl
@[simp] theorem Chip.setCtl_ddrb (c : Chip) (x : Channel) (v : Byte) : (c.setCtl x v).ddrb = c.ddrb := by cases x <;> rfl
@[simp] theorem Chip.setChan_inA (c : Chip) (x : Channel) (ch : Chan) : (c.setChan x ch).inA = c.inA := by cases x <;> rfl
@[simp] theorem Chip.setCtl_inA (c : Chip) (x : Channel) (v : Byte) : (c.setCtl x v).inA = c.inA := by cases x <;> rfl
@[simp] theorem Chip.setChan_inB (c : Chip) (x : Channel) (ch : Chan) : (c.setChan x ch).inB = c.inB := by cases x <;> rfl
@[simp] theorem Chip.setCtl_inB (c : Chip) (x : Channel) (v : Byte) : (c.setCtl x v).inB = c.inB := by cases x <;> rfl
@[simp] theorem Chip.setChan_rc (c : Chip) (x : Channel) (ch : Chan) : (c.setChan x ch).rc = c.rc := by cases x <;> rfl
@[simp] theorem Chip.setCtl_rc (c : Chip) (x : Channel) (v : Byte) : (c.setCtl x v).rc = c.rc := by cases x <;> rfl

/-- The two channels' slots of a chip and its tick slot are three different slots (10_state.md R25). -/
theorem slotOf_lt (k : Nat) (x : Channel) : 3 * k ≤ slotOf k x ∧ slotOf k x < todSlot k := by
  cases x <;> simp [slotOf, todSlot]

theorem slotOf_ne_todSlot (k j : Nat) (x : Channel) : slotOf k x ≠ todSlot j := by
  cases x <;> simp [slotOf, todSlot] <;> omega

theorem slotOf_inj {k j : Nat} {x y : Channel} (h : slotOf k x = slotOf j y) : k = j ∧ x = y := by
  cases x <;> cases y <;> simp only [slotOf] at h <;> first | exact ⟨by omega, rfl⟩ | exact absurd h (by omega)

end Sys2Proof.Machine
end

