-- ==== Sys2Proof/Laws/Ops.lean ====
section
/-! SUPPORT. What each shared operation of Sys2Proof/Machine/Ops.lean and Operands.lean can do, said once: the fault
monad, storing a cycle value, the alarm table, the selectors, the lines, raising a fault, running an operation. -/

namespace Sys2Proof.Machine

/-! ### The fault monad -/

theorem bind_eq_ok {α β : Type} {x : Except FaultCode α} {f : α → Except FaultCode β} {b : β} :
    (x >>= f) = .ok b ↔ ∃ a, x = .ok a ∧ f a = .ok b := by
  cases x with
  | error e => simp [bind, Except.bind]
  | ok a => simp [bind, Except.bind]

theorem bind_eq_error {α β : Type} {x : Except FaultCode α} {f : α → Except FaultCode β} {e : FaultCode} :
    (x >>= f) = .error e ↔ x = .error e ∨ ∃ a, x = .ok a ∧ f a = .error e := by
  cases x with
  | error e' => simp [bind, Except.bind]
  | ok a => simp [bind, Except.bind]

@[simp] theorem ok_bind {α β : Type} (a : α) (f : α → Except FaultCode β) :
    ((Except.ok a : Except FaultCode α) >>= f) = f a := rfl

@[simp] theorem error_bind {α β : Type} (e : FaultCode) (f : α → Except FaultCode β) :
    ((Except.error e : Except FaultCode α) >>= f) = .error e := rfl

/-! ### Cycle values -/

/-- A cycle value below `NEVER` is stored as it is (00_scope.md R15). -/
theorem cycleStore_ok {v : Nat} (h : v < neverNat) : cycleStore v = .ok (BitVec.ofNat 32 v) := by
  simp [cycleStore, Nat.not_le.mpr h]

/-- What `CycleStore` stores (00_scope.md R15). -/
theorem cycleStore_eq_ok {v : Nat} {c : Cycle} : cycleStore v = .ok c ↔ v < neverNat ∧ c = BitVec.ofNat 32 v := by
  unfold cycleStore
  split <;> rename_i h
  · constructor
    · intro h'; cases h'
    · rintro ⟨h', -⟩; omega
  · constructor
    · intro h'; cases h'; exact ⟨by omega, rfl⟩
    · rintro ⟨-, rfl⟩; rfl

/-- The one fault of `CycleStore` (00_scope.md R15). -/
theorem cycleStore_eq_error {v : Nat} {e : FaultCode} :
    cycleStore v = .error e ↔ neverNat ≤ v ∧ e = .clockOverflow := by
  unfold cycleStore
  split <;> rename_i h
  · constructor
    · intro h'; cases h'; exact ⟨h, rfl⟩
    · rintro ⟨-, rfl⟩; rfl
  · constructor
    · intro h'; cases h'
    · rintro ⟨h', -⟩; omega

/-- A number below `NEVER` survives in a register. -/
theorem toNat_ofNat_cycle {v : Nat} (h : v < neverNat) : (BitVec.ofNat 32 v).toNat = v := by
  rw [BitVec.toNat_ofNat, Nat.mod_eq_of_lt]
  exact Nat.lt_trans h (by decide)

/-! ### The alarm table -/

/-- `AlarmSet` below `NEVER` (41_alarm_scheduler.md R120). -/
theorem alarmSet_ok {a t : Nat} {s : State} (h : t < neverNat) :
    alarmSet a t s = .ok (s.setAlarm a ⟨true, BitVec.ofNat 32 t⟩) := by
  simp [alarmSet, cycleStore_ok h]

/-- All that `AlarmSet` can answer (41_alarm_scheduler.md R120). -/
theorem alarmSet_eq_ok {a t : Nat} {s s' : State} :
    alarmSet a t s = .ok s' ↔ t < neverNat ∧ s' = s.setAlarm a ⟨true, BitVec.ofNat 32 t⟩ := by
  unfold alarmSet
  rw [bind_eq_ok]
  constructor
  · rintro ⟨v, hv, h⟩
    obtain ⟨h1, rfl⟩ := cycleStore_eq_ok.mp hv
    cases h
    exact ⟨h1, rfl⟩
  · rintro ⟨h, rfl⟩
    exact ⟨_, cycleStore_ok h, rfl⟩

/-- The one fault of `AlarmSet` (41_alarm_scheduler.md R120). -/
theorem alarmSet_eq_error {a t : Nat} {s : State} {e : FaultCode} :
    alarmSet a t s = .error e ↔ neverNat ≤ t ∧ e = .clockOverflow := by
  unfold alarmSet
  rw [bind_eq_error]
  constructor
  · rintro (h | ⟨v, -, h⟩)
    · exact cycleStore_eq_error.mp h
    · cases h
  · exact fun h => .inl (cycleStore_eq_error.mpr h)

/-- What `AlarmUnset` leaves in the table (41_alarm_scheduler.md R120). -/
theorem alarm_alarmUnset (s : State) (a b : Nat) :
    (alarmUnset a s).alarm b = if b = a then Alarm.absent else s.alarm b := by
  unfold alarmUnset
  split
  · subst b
    by_cases h : a < s.alarms.length
    · rw [State.alarm_setAlarm_self s _ h]; rfl
    · simp [State.alarm, State.setAlarm, List.getD_eq_getElem?_getD, Nat.not_lt.mp h, Alarm.absent]
  · rename_i h; exact State.alarm_setAlarm_ne s _ h

/-- What a write of a slot leaves in the table (41_alarm_scheduler.md R120). -/
theorem State.alarm_setAlarm (s : State) (a b : Nat) (al : Alarm) :
    (s.setAlarm a al).alarm b = if b = a ∧ a < s.alarms.length then al else s.alarm b := by
  by_cases hb : b = a
  · subst b
    by_cases h : a < s.alarms.length
    · simp [State.alarm_setAlarm_self s _ h, h]
    · simp [State.alarm, State.setAlarm, List.getD_eq_getElem?_getD, h]
  · simp [State.alarm_setAlarm_ne s al hb, hb]

/-! ### Selectors and cycle operands -/

theorem selectChip_ok {k : Nat} {s : State} (h : k < s.cfg.nchip) : selectChip k s = .ok () := by
  simp [selectChip, Nat.not_le.mpr h]

theorem selectChip_eq_ok {k : Nat} {s : State} {u : Unit} : selectChip k s = .ok u ↔ k < s.cfg.nchip := by
  unfold selectChip; split <;> simp <;> omega

theorem selectSlot_eq_ok {a : Nat} {s : State} {u : Unit} : selectSlot a s = .ok u ↔ a < s.cfg.nAlarms := by
  unfold selectSlot; split <;> simp <;> omega

theorem selectExternalSlot_eq_ok {a : Nat} {s : State} {u : Unit} :
    selectExternalSlot a s = .ok u ↔ a < s.cfg.nAlarms ∧ 3 * s.cfg.nchip ≤ a := by
  unfold selectExternalSlot; split <;> simp <;> omega

theorem selectExternalSource_eq_ok {n : Nat} {s : State} {u : Unit} :
    selectExternalSource n s = .ok u ↔ n < s.cfg.nSources ∧ s.cfg.nchip ≤ n := by
  unfold selectExternalSource; split <;> simp <;> omega

theorem cycleNotFuture_eq_ok {c : Cycle} {s : State} {u : Unit} : cycleNotFuture c s = .ok u ↔ c ≤ s.clk := by
  unfold cycleNotFuture
  split <;> rename_i h
  · simpa using h
  · simpa using h

/-! ### The lines -/

/-- `AggSet`'s two cases: a rising edge of the line is stamped, anything else sets the bit alone
(42_interrupt_aggregator.md R143). -/
theorem aggSet_cases (n : Nat) (b : Bool) (at_ : Cycle) (s : State) :
    (s.rises n b = true ∧ aggSet n b at_ s = (s.setSource n b).setLineClk (s.lineOf n) at_) ∨
    (s.rises n b = false ∧ aggSet n b at_ s = s.setSource n b) := by
  unfold aggSet
  cases h : s.rises n b <;> simp

@[simp] theorem aggSet_cfg (n : Nat) (b : Bool) (at_ : Cycle) (s : State) : (aggSet n b at_ s).cfg = s.cfg := by
  rcases aggSet_cases n b at_ s with ⟨-, h⟩ | ⟨-, h⟩ <;> rw [h] <;> cases s.lineOf n <;> rfl

@[simp] theorem aggSet_clk (n : Nat) (b : Bool) (at_ : Cycle) (s : State) : (aggSet n b at_ s).clk = s.clk := by
  rcases aggSet_cases n b at_ s with ⟨-, h⟩ | ⟨-, h⟩ <;> rw [h] <;> cases s.lineOf n <;> rfl

@[simp] theorem aggSet_alarms (n : Nat) (b : Bool) (at_ : Cycle) (s : State) :
    (aggSet n b at_ s).alarms = s.alarms := by
  rcases aggSet_cases n b at_ s with ⟨-, h⟩ | ⟨-, h⟩ <;> rw [h] <;> cases s.lineOf n <;> rfl

@[simp] theorem aggSet_chips (n : Nat) (b : Bool) (at_ : Cycle) (s : State) : (aggSet n b at_ s).chips = s.chips := by
  rcases aggSet_cases n b at_ s with ⟨-, h⟩ | ⟨-, h⟩ <;> rw [h] <;> cases s.lineOf n <;> rfl

@[simp] theorem aggSet_src (n : Nat) (b : Bool) (at_ : Cycle) (s : State) :
    (aggSet n b at_ s).src = s.src.set n b := by
  rcases aggSet_cases n b at_ s with ⟨-, h⟩ | ⟨-, h⟩ <;> rw [h] <;> cases s.lineOf n <;> rfl

@[simp] theorem aggSet_draws (n : Nat) (b : Bool) (at_ : Cycle) (s : State) : (aggSet n b at_ s).draws = s.draws := by
  rcases aggSet_cases n b at_ s with ⟨-, h⟩ | ⟨-, h⟩ <;> rw [h] <;> cases s.lineOf n <;> rfl

/-- A bit set to what it is changes nothing: no edge of any line. -/
theorem aggSet_self {n : Nat} {b : Bool} (at_ : Cycle) {s : State} (h : s.source n = b) (hn : n < s.src.length) :
    aggSet n b at_ s = s := by
  have hs : s.setSource n b = s := by
    have : s.src.set n b = s.src := by
      apply List.ext_getElem?
      intro i
      by_cases hi : i = n
      · subst hi
        have : s.src[i] = b := by simpa [State.source, List.getD_eq_getElem?_getD, hn] using h
        simp [hn, this]
      · simp [List.getElem?_set_ne (Ne.symm hi)]
    unfold State.setSource
    rw [this]
  have hr : s.rises n b = false := by simp [State.rises, hs]
  simp [aggSet, hr, hs]

/-! ### Running an operation -/

@[simp] theorem conclude_ok (s s' : State) (r : Reply) : conclude s (.ok (s', r)) = s'.answer r := rfl

@[simp] theorem conclude_error (s : State) (f : FaultCode) : conclude s (.error f) = takeFault f s := rfl

theorem perform_of_fault {s : State} {f : FaultCode} (h : s.fault = some f) (body : State → Result) :
    perform s body = .next (refuseIn f s) := by simp [perform, h]

theorem perform_of_none {s : State} (h : s.fault = none) (body : State → Result) :
    perform s body = .next (conclude s (body s)) := by simp [perform, h]

theorem perform_ok {s s' : State} {r : Reply} {body : State → Result} (h : s.fault = none)
    (hb : body s = .ok (s', r)) : perform s body = .next (s'.answer r) := by
  simp [perform, h, hb]

/-- All that an operation other than `DOMAIN_RESET` can do: it is refused, it answers, or it faults
(60_exceptions.md R287, R288). -/
theorem perform_cases (s : State) (body : State → Result) :
    (∃ f, s.fault = some f ∧ perform s body = .next (refuseIn f s)) ∨
    (s.fault = none ∧ ∃ s' r, body s = .ok (s', r) ∧ perform s body = .next (s'.answer r)) ∨
    (s.fault = none ∧ ∃ f, body s = .error f ∧ perform s body = .next (takeFault f s)) := by
  cases h : s.fault with
  | some f => exact .inl ⟨f, rfl, perform_of_fault h body⟩
  | none =>
    cases hb : body s with
    | ok p => exact .inr (.inl ⟨rfl, p.1, p.2, rfl, perform_ok h hb⟩)
    | error f => exact .inr (.inr ⟨rfl, f, rfl, by simp [perform, h, hb]⟩)

/-! ### The command port -/

/-- What taking an operation from the command port gives (30_encoding.md R80, R83). -/
theorem fetch_eq_some {s s' : State} {w : CmdWord} :
    fetch s = some (w, s') ↔ ∃ p rest, s.port = p :: rest ∧ w = p.word ∧ s' = { s with port := rest, payloadIn := p.payload } := by
  unfold fetch
  cases s.port with
  | nil => simp
  | cons p rest =>
    simp only [Option.some.injEq, Prod.mk.injEq, List.cons.injEq]
    constructor
    · rintro ⟨rfl, rfl⟩; exact ⟨p, rest, ⟨rfl, rfl⟩, rfl, rfl⟩
    · rintro ⟨q, r, ⟨rfl, rfl⟩, rfl, rfl⟩; exact ⟨rfl, rfl⟩

theorem fetch_eq_none {s : State} : fetch s = none ↔ s.port = [] := by
  unfold fetch; cases s.port <;> simp

/-- Every instruction of a word list runs in order: the loop over `0 .. n - 1` one further. -/
@[simp] theorem forUpTo_zero (f : Nat → State → Except FaultCode State) (s : State) : forUpTo f 0 s = .ok s := rfl

theorem forUpTo_succ_eq_ok {f : Nat → State → Except FaultCode State} {n : Nat} {s s' : State} :
    forUpTo f (n + 1) s = .ok s' ↔ ∃ s₁, forUpTo f n s = .ok s₁ ∧ f n s₁ = .ok s' := bind_eq_ok

/-- What every step of the loop keeps, the loop keeps. -/
theorem forUpTo_keeps {f : Nat → State → Except FaultCode State} {P : State → Prop}
    (hf : ∀ k s s', P s → f k s = .ok s' → P s') {n : Nat} {s s' : State} (hs : P s) (h : forUpTo f n s = .ok s') :
    P s' := by
  induction n generalizing s' with
  | zero => cases h; exact hs
  | succ n ih =>
    obtain ⟨s₁, h₁, h₂⟩ := forUpTo_succ_eq_ok.mp h
    exact hf n s₁ s' (ih h₁) h₂

end Sys2Proof.Machine
end

