-- ==== Sys2Proof/Laws/Frame.lean ====
section
/-! SUPPORT. The frame of the operations of a chip: `OnlyChip k` holds between the state before and the state after of
every shared operation that works on chip `k` (20_memory.md R73). -/

namespace Sys2Proof.Machine

theorem OnlyChip.refl (k : Nat) (s : State) : OnlyChip k s s := by constructor <;> intros <;> rfl

theorem OnlyChip.trans {k : Nat} {a b c : State} (h : OnlyChip k a b) (g : OnlyChip k b c) : OnlyChip k a c where
  cfg := g.cfg.trans h.cfg
  clk := g.clk.trans h.clk
  cpuMasked := g.cpuMasked.trans h.cpuMasked
  fault := g.fault.trans h.fault
  port := g.port.trans h.port
  payloadIn := g.payloadIn.trans h.payloadIn
  status := g.status.trans h.status
  resp := g.resp.trans h.resp
  payloadOut := g.payloadOut.trans h.payloadOut
  events := g.events.trans h.events
  alarms_length := g.alarms_length.trans h.alarms_length
  src_length := g.src_length.trans h.src_length
  chips_length := g.chips_length.trans h.chips_length
  chip := fun j hj => (g.chip j hj).trans (h.chip j hj)
  alarm := fun a h1 h2 h3 => (g.alarm a h1 h2 h3).trans (h.alarm a h1 h2 h3)
  source := fun n hn => (g.source n hn).trans (h.source n hn)

theorem OnlyChip.setChip (k : Nat) (c : Chip) (s : State) : OnlyChip k s (s.setChip k c) := by
  constructor <;> intros <;> first
    | rfl
    | exact State.chip_setChip_ne s c (by assumption)
    | simp [State.setChip]

theorem OnlyChip.setChan (k : Nat) (x : Channel) (ch : Chan) (s : State) : OnlyChip k s (s.setChan k x ch) :=
  OnlyChip.setChip k _ s

theorem OnlyChip.setCtl (k : Nat) (x : Channel) (v : Byte) (s : State) : OnlyChip k s (s.setCtl k x v) :=
  OnlyChip.setChip k _ s

/-- The three slots of a chip are its own (10_state.md R25). -/
theorem OnlyChip.setAlarm {k a : Nat} (h : a = slotOf k .A ∨ a = slotOf k .B ∨ a = todSlot k) (al : Alarm)
    (s : State) : OnlyChip k s (s.setAlarm a al) := by
  constructor <;> intros <;> first
    | rfl
    | simp [State.setAlarm]; done
    | (apply State.alarm_setAlarm_ne; rintro rfl; rcases h with h | h | h <;> contradiction)

theorem ownSlot (k : Nat) (x : Channel) : slotOf k x = slotOf k .A ∨ slotOf k x = slotOf k .B ∨ slotOf k x = todSlot k := by
  cases x <;> simp

theorem OnlyChip.alarmUnset (k : Nat) (x : Channel) (s : State) : OnlyChip k s (alarmUnset (slotOf k x) s) :=
  OnlyChip.setAlarm (ownSlot k x) _ s

theorem OnlyChip.alarmSet {k t : Nat} {x : Channel} {s s' : State} (h : alarmSet (slotOf k x) t s = .ok s') :
    OnlyChip k s s' := by
  obtain ⟨-, rfl⟩ := alarmSet_eq_ok.mp h
  exact OnlyChip.setAlarm (ownSlot k x) _ s

theorem OnlyChip.alarmSet_tod {k t : Nat} {s s' : State} (h : Sys2Proof.Machine.alarmSet (todSlot k) t s = .ok s') :
    OnlyChip k s s' := by
  obtain ⟨-, rfl⟩ := alarmSet_eq_ok.mp h
  exact OnlyChip.setAlarm (.inr (.inr rfl)) _ s

theorem OnlyChip.aggSet (k : Nat) (b : Bool) (e : Cycle) (s : State) : OnlyChip k s (aggSet k b e s) := by
  have h1 : OnlyChip k s (s.setSource k b) := by
    constructor <;> intros <;> first | rfl | exact State.source_setSource_ne s b (by assumption) | simp [State.setSource]
  rcases aggSet_cases k b e s with ⟨-, h⟩ | ⟨-, h⟩
  · rw [h]
    refine h1.trans ?_
    cases s.lineOf k <;> constructor <;> intros <;> rfl
  · rw [h]; exact h1

theorem OnlyChip.updateLine (k : Nat) (e : Cycle) (s : State) : OnlyChip k s (updateLine k e s) :=
  OnlyChip.aggSet k _ e s

theorem OnlyChip.setFlag (k : Nat) (bit : Byte) (e : Cycle) (s : State) : OnlyChip k s (setFlag k bit e s) := by
  unfold Sys2Proof.Machine.setFlag
  split
  · exact OnlyChip.refl k s
  · exact (OnlyChip.setChip k _ s).trans (OnlyChip.updateLine k e _)

theorem OnlyChip.shiftEvents (k n e0 P : Nat) (s : State) : OnlyChip k s (shiftEvents k n e0 P s) := by
  unfold Sys2Proof.Machine.shiftEvents
  dsimp only
  split
  · exact OnlyChip.refl k s
  · split
    · split
      · exact (OnlyChip.setChip k _ s).trans (OnlyChip.setFlag k _ _ _)
      · exact OnlyChip.setChip k _ s
    · split
      · exact (OnlyChip.setChip k _ s).trans (OnlyChip.setFlag k _ _ _)
      · exact OnlyChip.setChip k _ s

theorem OnlyChip.stopOneShot (k : Nat) (x : Channel) (s : State) : OnlyChip k s (stopOneShot k x s) := by
  unfold Sys2Proof.Machine.stopOneShot
  split
  · exact OnlyChip.setCtl k x _ s
  · exact OnlyChip.refl k s

theorem OnlyChip.countOne {k : Nat} {x : Channel} {u : State → State} (hu : ∀ s, OnlyChip k s (u s)) (s : State) :
    OnlyChip k s (countOne u k x s) := by
  unfold Sys2Proof.Machine.countOne
  dsimp only
  split
  · exact ((OnlyChip.setChan k x _ s).trans (OnlyChip.stopOneShot k x _)).trans (hu _)
  · exact OnlyChip.setChan k x _ s

theorem OnlyChip.countLoop {k : Nat} {x : Channel} {mode : ChanState} {P : Nat} {u : Nat → State → State}
    (hu : ∀ e s, OnlyChip k s (u e s)) (n e : Nat) (s : State) : OnlyChip k s (countLoop u k x mode P n e s) := by
  induction n generalizing e s with
  | zero => exact OnlyChip.refl k s
  | succ n ih =>
    unfold Sys2Proof.Machine.countLoop
    split
    · exact OnlyChip.refl k s
    · exact (OnlyChip.countOne (hu e) s).trans (ih _ _)

theorem OnlyChip.underflowEffectsB (k e0 : Nat) (s : State) : OnlyChip k s (underflowEffectsB k e0 s) :=
  OnlyChip.setFlag k _ _ s

theorem OnlyChip.clockShift (k n e0 P : Nat) (s : State) : OnlyChip k s (clockShift k n e0 P s) := by
  unfold Sys2Proof.Machine.clockShift
  split
  · exact OnlyChip.shiftEvents k n e0 P s
  · exact OnlyChip.refl k s

theorem OnlyChip.cascade (k n e0 P : Nat) (s : State) : OnlyChip k s (cascade k n e0 P s) := by
  unfold Sys2Proof.Machine.cascade
  split
  · exact OnlyChip.countLoop (fun e s => OnlyChip.underflowEffectsB k e s) n e0 s
  · exact OnlyChip.refl k s

theorem OnlyChip.underflowEffects (k : Nat) (x : Channel) (n e0 P : Nat) (s : State) :
    OnlyChip k s (underflowEffects k x n e0 P s) := by
  cases x with
  | B => exact OnlyChip.underflowEffectsB k e0 s
  | A => exact ((OnlyChip.setFlag k _ _ s).trans (OnlyChip.clockShift k n e0 P _)).trans (OnlyChip.cascade k n e0 P _)

theorem OnlyChip.countEvents (k : Nat) (x : Channel) (mode : ChanState) (n e0 P : Nat) (s : State) :
    OnlyChip k s (countEvents k x mode n e0 P s) :=
  OnlyChip.countLoop (fun e s => OnlyChip.underflowEffects k x 1 e 1 s) n e0 s

theorem OnlyChip.chanCatchUp {k : Nat} {x : Channel} {c : Cycle} {s s' : State} (h : chanCatchUp k x c s = .ok s') :
    OnlyChip k s s' := by
  unfold Sys2Proof.Machine.chanCatchUp at h
  dsimp only at h
  split at h
  · split at h
    · cases h
      refine OnlyChip.trans ?_ (OnlyChip.underflowEffects k x _ _ _ _)
      exact (OnlyChip.setCtl k x _ s).trans ((OnlyChip.setChan k x _ _).trans (OnlyChip.alarmUnset k x _))
    · obtain ⟨u, -, h⟩ := bind_eq_ok.mp h
      obtain ⟨s₁, h₁, h⟩ := bind_eq_ok.mp h
      cases h
      exact ((OnlyChip.setChan k x _ s).trans (OnlyChip.alarmSet h₁)).trans (OnlyChip.underflowEffects k x _ _ _ _)
  · cases h; exact OnlyChip.refl k s

theorem OnlyChip.storeLive (k : Nat) (c : Cycle) (s : State) : OnlyChip k s (storeLive k c s) :=
  OnlyChip.setChip k _ s

/-- All that reconciliation can do (43_chip_timers.md R166): catch up A, catch up B, store the live values. -/
theorem updateTo_eq_ok {k : Nat} {c : Cycle} {s s' : State} :
    updateTo k c s = .ok s' ↔ (s.chip k).rc ≤ c ∧
      ∃ s₁ s₂, chanCatchUp k .A c s = .ok s₁ ∧ chanCatchUp k .B c s₁ = .ok s₂ ∧ s' = storeLive k c s₂ := by
  unfold updateTo
  split <;> rename_i hc
  · constructor
    · intro h; cases h
    · rintro ⟨h, -⟩; exact absurd h (by simpa using hc)
  · constructor
    · intro h
      obtain ⟨s₁, h₁, h⟩ := bind_eq_ok.mp h
      obtain ⟨s₂, h₂, h⟩ := bind_eq_ok.mp h
      cases h
      exact ⟨by simpa using hc, s₁, s₂, h₁, h₂, rfl⟩
    · rintro ⟨-, s₁, s₂, h₁, h₂, rfl⟩
      exact bind_eq_ok.mpr ⟨s₁, h₁, bind_eq_ok.mpr ⟨s₂, h₂, rfl⟩⟩

theorem OnlyChip.updateTo {k : Nat} {c : Cycle} {s s' : State} (h : updateTo k c s = .ok s') : OnlyChip k s s' := by
  obtain ⟨-, s₁, s₂, h₁, h₂, rfl⟩ := updateTo_eq_ok.mp h
  exact ((OnlyChip.chanCatchUp h₁).trans (OnlyChip.chanCatchUp h₂)).trans (OnlyChip.storeLive k c s₂)

theorem OnlyChip.startChannel {k : Nat} {x : Channel} {b : Bool} {s s' : State} (h : startChannel k x b s = .ok s') :
    OnlyChip k s s' := by
  unfold Sys2Proof.Machine.startChannel at h
  obtain ⟨u, -, h⟩ := bind_eq_ok.mp h
  exact (OnlyChip.setChan k x _ s).trans (OnlyChip.alarmSet h)

theorem OnlyChip.stopChannel (k : Nat) (x : Channel) (b : Bool) (s : State) : OnlyChip k s (stopChannel k x b s) :=
  (OnlyChip.setChan k x _ s).trans (OnlyChip.alarmUnset k x _)

theorem OnlyChip.reloadRunning {k : Nat} {x : Channel} {s s' : State} (h : reloadRunning k x s = .ok s') :
    OnlyChip k s s' := by
  unfold Sys2Proof.Machine.reloadRunning at h
  obtain ⟨u, -, h⟩ := bind_eq_ok.mp h
  exact (OnlyChip.setChan k x _ s).trans (OnlyChip.alarmSet h)

theorem OnlyChip.controlEffect {k : Nat} {x : Channel} {v : Byte} {s s' : State}
    (h : controlEffect k x v s = .ok s') : OnlyChip k s s' := by
  unfold Sys2Proof.Machine.controlEffect at h
  split at h
  · exact OnlyChip.startChannel h
  · cases h; exact OnlyChip.stopChannel k x _ s
  · split at h
    · exact OnlyChip.reloadRunning h
    · cases h; exact OnlyChip.refl k _
  · cases h
    split
    · exact OnlyChip.setChan k x _ s
    · exact OnlyChip.refl k s

theorem OnlyChip.writeControl {k : Nat} {x : Channel} {v : Byte} {s s' : State} (h : writeControl k x v s = .ok s') :
    OnlyChip k s s' := by
  obtain ⟨s₁, h₁, h⟩ := bind_eq_ok.mp h
  cases h
  exact (OnlyChip.controlEffect h₁).trans (OnlyChip.setCtl k x _ s₁)

theorem OnlyChip.writeLatchByte {k : Nat} {x : Channel} {half : Half} {v : Byte} {s s' : State}
    (h : writeLatchByte k x half v s = .ok s') : OnlyChip k s s' := by
  unfold Sys2Proof.Machine.writeLatchByte at h
  dsimp only at h
  split at h
  · obtain ⟨u, -, h⟩ := bind_eq_ok.mp h
    exact (OnlyChip.setChan k x _ s).trans (OnlyChip.alarmSet h)
  · cases h; exact OnlyChip.setChan k x _ s

theorem OnlyChip.todAdvance (k : Nat) (T : Cycle) (s : State) : OnlyChip k s (todAdvance k T s) := by
  unfold Sys2Proof.Machine.todAdvance
  dsimp only
  split
  · exact OnlyChip.refl k s
  · split
    · exact (OnlyChip.setChip k _ s).trans (OnlyChip.setFlag k _ _ _)
    · exact OnlyChip.setChip k _ s

theorem OnlyChip.todTick {k : Nat} {T : Cycle} {s s' : State} (h : todTick k T s = .ok s') : OnlyChip k s s' :=
  (OnlyChip.todAdvance k T s).trans (OnlyChip.alarmSet_tod h)

theorem OnlyChip.rearmChannel {k : Nat} {x : Channel} {s s' : State} (h : rearmChannel k x s = .ok s') :
    OnlyChip k s s' := by
  unfold Sys2Proof.Machine.rearmChannel at h
  dsimp only at h
  split at h
  · obtain ⟨u, -, h⟩ := bind_eq_ok.mp h
    exact (OnlyChip.setChan k x _ s).trans (OnlyChip.alarmSet h)
  · cases h; exact OnlyChip.refl k s

theorem OnlyChip.restoreFrom {k : Nat} {p : List Byte} {s s' : State} (h : restoreFrom k p s = .ok s') :
    OnlyChip k s s' := by
  unfold Sys2Proof.Machine.restoreFrom at h
  obtain ⟨s₁, h₁, h⟩ := bind_eq_ok.mp h
  obtain ⟨s₂, h₂, h⟩ := bind_eq_ok.mp h
  obtain ⟨s₃, h₃, h⟩ := bind_eq_ok.mp h
  cases h
  refine OnlyChip.trans ?_ (OnlyChip.updateLine k _ s₃)
  refine OnlyChip.trans ?_ (OnlyChip.alarmSet_tod h₃)
  refine OnlyChip.trans ?_ (OnlyChip.rearmChannel h₂)
  refine OnlyChip.trans ?_ (OnlyChip.rearmChannel h₁)
  refine OnlyChip.trans ?_ (OnlyChip.setChip k _ _)
  refine OnlyChip.trans ?_ (OnlyChip.setAlarm (.inr (.inr rfl)) _ _)
  exact (OnlyChip.alarmUnset k .A s).trans (OnlyChip.alarmUnset k .B _)

/-- A chip reset draws two latches and otherwise touches its own chip alone (70_reset_and_hazards.md R312). -/
theorem chipReset_onlyChip {k : Nat} {c : Cycle} {s s' : State} (h : chipReset k c s = .ok s') :
    OnlyChip k s s' ∧ s'.draws = s.draws + 2 := by
  obtain ⟨s₁, h₁, h⟩ := bind_eq_ok.mp h
  obtain ⟨-, rfl⟩ := alarmSet_eq_ok.mp h₁
  cases h
  refine ⟨?_, by simp [blankChip, alarmUnset]⟩
  refine OnlyChip.trans ?_ (OnlyChip.aggSet k _ c _)
  refine OnlyChip.trans ?_ (OnlyChip.setAlarm (.inr (.inr rfl)) _ _)
  refine OnlyChip.trans ?_ (OnlyChip.alarmUnset k .B _)
  refine OnlyChip.trans ?_ (OnlyChip.alarmUnset k .A _)
  refine (OnlyChip.setChip k (Chip.blank (Config.freeLatch s.draws) (Config.freeLatch (s.draws + 1)) c) s).trans ?_
  constructor <;> intros <;> rfl

/-- The callback of a chip's slot works on that chip (41_alarm_scheduler.md R129). -/
theorem fire_onlyChip {a overrun : Nat} {s s' : State} (ha : a < 3 * s.cfg.nchip) (h : fire a overrun s = .ok s') :
    OnlyChip (a / 3) s s' := by
  unfold fire at h
  rw [if_pos ha] at h
  split at h
  · exact OnlyChip.todTick h
  · exact OnlyChip.updateTo h

/-- The callback of an external slot disarms it and emits its event (41_alarm_scheduler.md R129). -/
theorem fire_external {a overrun : Nat} {s : State} (ha : ¬a < 3 * s.cfg.nchip) :
    fire a overrun s = .ok (emit (.fired a overrun) (alarmUnset a s)) := by
  unfold fire; rw [if_neg ha]

end Sys2Proof.Machine
end

