-- ==== Sys2Proof/Laws/Invariant.lean ====
section
/-! SUPPORT. A checker for the invariant, for concrete states: where it answers true the invariant holds. -/

namespace Sys2Proof.Machine

/-- The checker of `Config.Wf`. -/
def cfgCheck (c : Config) : Bool :=
  decide (c.safeBase < c.highWater) && decide (c.highWater < neverNat) && decide (c.nchip ≤ 16)
    && decide (3 * c.nchip ≤ c.nAlarms) && decide (c.nAlarms ≤ 256) && decide (c.nchip ≤ c.nSources)
    && decide (c.nSources ≤ 256) && decide (c.srcLine.length = c.nSources) && decide (c.readWins.length = c.nchip)
    && decide (10 ≤ c.cyclesPerSecond) && decide (c.todPeriod < neverNat)
    && (c.srEarly.all fun t => decide (1 ≤ t ∧ t ≤ 15)) && decide (1 ≤ c.snapRdiBias)
    && decide (c.snapRdiBias + c.snapRdiMax ≤ 255)

/-- The checker of `ChanInv`. -/
def chanCheck (s : State) (k : Nat) (x : Channel) : Bool :=
  if (s.chip k).chanState x = .running then
    decide ((s.chip k).rc < ((s.chip k).chan x).u)
      && decide (s.alarm (slotOf k x) = ⟨true, ((s.chip k).chan x).u⟩)
      && decide (((s.chip k).chan x).u.toNat ≤ (s.chip k).rc.toNat + ((s.chip k).chan x).cnt.toNat + 2)
  else
    decide (((s.chip k).chan x).u = never) && decide (s.alarm (slotOf k x) = ⟨false, never⟩)

/-- The checker of `ChipInv`. -/
def chipCheck (s : State) (k : Nat) : Bool :=
  chanCheck s k .A && chanCheck s k .B && decide ((s.chip k).rc ≤ s.clk)
    && ((s.chip k).lastRead.all fun c => decide (c ≤ (s.chip k).rc)) && decide (s.source k = (s.chip k).summary)
    && decide ((s.chip k).srBits.toNat ≤ 16) && (s.alarm (todSlot k)).armed
    && decide ((s.chip k).mask &&& 0xF0 = 0) && decide ((s.chip k).flags &&& 0xF0 = 0)
    && decide ((s.chip k).cra &&& 0x10 = 0) && decide ((s.chip k).crb &&& 0x10 = 0)
    && decide (s.chip k).tod.Masked && decide (s.chip k).todAlarm.Masked && decide (s.chip k).todLatch.Masked

/-- The checker of `State.Inv`. -/
def invCheck (s : State) : Bool :=
  cfgCheck s.cfg && decide (s.alarms.length = s.cfg.nAlarms) && decide (s.src.length = s.cfg.nSources)
    && decide (s.chips.length = s.cfg.nchip) && decide (s.clk.toNat < neverNat)
    && (s.alarms.all fun al => if al.armed then decide (al.target.toNat < neverNat) else decide (al.target = never))
    && decide (s.lineClkMaskable ≤ s.clk) && decide (s.lineClkUrgent ≤ s.clk)
    && (List.range s.cfg.nchip).all (chipCheck s)

theorem cfg_wf_of_check {c : Config} (h : cfgCheck c = true) : c.Wf := by
  simp only [cfgCheck, Bool.and_eq_true, decide_eq_true_eq, Option.all_eq_true] at h
  obtain ⟨⟨⟨⟨⟨⟨⟨⟨⟨⟨⟨⟨⟨h1, h2⟩, h3⟩, h4⟩, h5⟩, h6⟩, h7⟩, h8⟩, h9⟩, h10⟩, h11⟩, h12⟩, h13⟩, h14⟩ := h
  exact ⟨h1, h2, h3, h4, h5, h6, h7, h8, h9, h10, h11, h12, h13, h14⟩

theorem chanInv_of_check {s : State} {k : Nat} {x : Channel} (h : chanCheck s k x = true) : ChanInv s k x := by
  unfold chanCheck at h
  split at h
  · rename_i hr
    simp only [Bool.and_eq_true, decide_eq_true_eq] at h
    exact ⟨fun _ => h.1.1, fun _ => h.1.2, fun _ => h.2, fun hn => absurd hr hn, fun hn => absurd hr hn⟩
  · rename_i hr
    simp only [Bool.and_eq_true, decide_eq_true_eq] at h
    exact ⟨fun hn => absurd hn hr, fun hn => absurd hn hr, fun hn => absurd hn hr, fun _ => h.1, fun _ => h.2⟩

theorem chipInv_of_check {s : State} {k : Nat} (h : chipCheck s k = true) : ChipInv s k := by
  simp only [chipCheck, Bool.and_eq_true, decide_eq_true_eq, Option.all_eq_true] at h
  obtain ⟨⟨⟨⟨⟨⟨⟨⟨⟨⟨⟨⟨⟨hA, hB⟩, h3⟩, h4⟩, h5⟩, h6⟩, h7⟩, h8⟩, h9⟩, h10⟩, h11⟩, h12⟩, h13⟩, h14⟩ := h
  refine ⟨fun x => ?_, h3, h4, h5, h6, h7, h8, h9, h10, h11, h12, h13, h14⟩
  cases x
  · exact chanInv_of_check hA
  · exact chanInv_of_check hB

/-- Where the checker answers true the invariant holds. -/
theorem inv_of_check {s : State} (h : invCheck s = true) : s.Inv := by
  simp only [invCheck, Bool.and_eq_true, decide_eq_true_eq, List.all_eq_true, List.mem_range] at h
  obtain ⟨⟨⟨⟨⟨⟨⟨⟨h1, h2⟩, h3⟩, h4⟩, h5⟩, h6⟩, h7⟩, h8⟩, h9⟩ := h
  refine ⟨cfg_wf_of_check h1, h2, h3, h4, h5, fun al hal ha => ?_, fun al hal ha => ?_, fun l => ?_,
    fun k hk => chipInv_of_check (h9 k hk)⟩
  · simpa [ha] using h6 al hal
  · simpa [ha] using h6 al hal
  · cases l
    · exact h7
    · exact h8

end Sys2Proof.Machine
end

