-- ==== Sys2Proof/Laws/PerInstr.lean ====
section
/-! SUPPORT. The per-instruction law EncodesRow: the word an operation assembles to lies on its own row of
spec/opcode_table.json: masked with the row's mask it is the row's match (30_encoding.md R84, R85). -/

namespace Sys2Proof.Laws

/-- The mask of an operation's row in spec/opcode_table.json. -/
def tableMask (i : Instr) : CmdWord :=
  match i with
  | .domainReset => 0xFF0000000000
  | .chipReset _ => 0xFF0000000000
  | .clkAdvance _ => 0xFF0000000000
  | .clkRead => 0xFF0000000000
  | .guardTick => 0xFF0000000000
  | .alarmSet _ _ => 0xFF0000000000
  | .alarmUnset _ => 0xFF0000000000
  | .alarmNext => 0xFF0000000000
  | .alarmRead _ => 0xFF0000000000
  | .dispatch => 0xFF0000000000
  | .irqAssert _ _ => 0xFF0000000000
  | .irqDeassert _ _ => 0xFF0000000000
  | .irqQuery _ _ => 0xFF0000000000
  | .irqCpumask _ => 0xFF0000000000
  | .irqStamp _ => 0xFF0000000000
  | .chipReadPra _ => 0xFF0F00000000
  | .chipReadPrb _ => 0xFF0F00000000
  | .chipReadDdra _ => 0xFF0F00000000
  | .chipReadDdrb _ => 0xFF0F00000000
  | .chipReadTalo _ => 0xFF0F00000000
  | .chipReadTahi _ => 0xFF0F00000000
  | .chipReadTblo _ => 0xFF0F00000000
  | .chipReadTbhi _ => 0xFF0F00000000
  | .chipReadTod10 _ => 0xFF0F00000000
  | .chipReadTodsec _ => 0xFF0F00000000
  | .chipReadTodmin _ => 0xFF0F00000000
  | .chipReadTodhr _ => 0xFF0F00000000
  | .chipReadSdr _ => 0xFF0F00000000
  | .chipReadIcr _ => 0xFF0F00000000
  | .chipReadCra _ => 0xFF0F00000000
  | .chipReadCrb _ => 0xFF0F00000000
  | .chipWritePra _ _ => 0xFF0F00000000
  | .chipWritePrb _ _ => 0xFF0F00000000
  | .chipWriteDdra _ _ => 0xFF0F00000000
  | .chipWriteDdrb _ _ => 0xFF0F00000000
  | .chipWriteTalo _ _ => 0xFF0F00000000
  | .chipWriteTahi _ _ => 0xFF0F00000000
  | .chipWriteTblo _ _ => 0xFF0F00000000
  | .chipWriteTbhi _ _ => 0xFF0F00000000
  | .chipWriteTod10 _ _ => 0xFF0F00000000
  | .chipWriteTodsec _ _ => 0xFF0F00000000
  | .chipWriteTodmin _ _ => 0xFF0F00000000
  | .chipWriteTodhr _ _ => 0xFF0F00000000
  | .chipWriteSdr _ _ => 0xFF0F00000000
  | .chipWriteIcr _ _ => 0xFF0F00000000
  | .chipWriteCra _ _ => 0xFF0F00000000
  | .chipWriteCrb _ _ => 0xFF0F00000000
  | .chipPeek _ _ => 0xFF0000000000
  | .chipUpdate _ _ => 0xFF0000000000
  | .portIn _ _ _ => 0xFF0000000000
  | .portOut _ _ => 0xFF0000000000
  | .extPulse _ => 0xFF0000000000
  | .snapSave _ => 0xFF0000000000
  | .snapRestore _ => 0xFF0000000000

/-- The match of an operation's row in spec/opcode_table.json. -/
def tableMatch (i : Instr) : CmdWord :=
  match i with
  | .domainReset => 0x010000000000
  | .chipReset _ => 0x020000000000
  | .clkAdvance _ => 0x100000000000
  | .clkRead => 0x110000000000
  | .guardTick => 0x120000000000
  | .alarmSet _ _ => 0x200000000000
  | .alarmUnset _ => 0x210000000000
  | .alarmNext => 0x220000000000
  | .alarmRead _ => 0x230000000000
  | .dispatch => 0x240000000000
  | .irqAssert _ _ => 0x300000000000
  | .irqDeassert _ _ => 0x310000000000
  | .irqQuery _ _ => 0x320000000000
  | .irqCpumask _ => 0x330000000000
  | .irqStamp _ => 0x340000000000
  | .chipReadPra _ => 0x400000000000
  | .chipReadPrb _ => 0x400100000000
  | .chipReadDdra _ => 0x400200000000
  | .chipReadDdrb _ => 0x400300000000
  | .chipReadTalo _ => 0x400400000000
  | .chipReadTahi _ => 0x400500000000
  | .chipReadTblo _ => 0x400600000000
  | .chipReadTbhi _ => 0x400700000000
  | .chipReadTod10 _ => 0x400800000000
  | .chipReadTodsec _ => 0x400900000000
  | .chipReadTodmin _ => 0x400A00000000
  | .chipReadTodhr _ => 0x400B00000000
  | .chipReadSdr _ => 0x400C00000000
  | .chipReadIcr _ => 0x400D00000000
  | .chipReadCra _ => 0x400E00000000
  | .chipReadCrb _ => 0x400F00000000
  | .chipWritePra _ _ => 0x410000000000
  | .chipWritePrb _ _ => 0x410100000000
  | .chipWriteDdra _ _ => 0x410200000000
  | .chipWriteDdrb _ _ => 0x410300000000
  | .chipWriteTalo _ _ => 0x410400000000
  | .chipWriteTahi _ _ => 0x410500000000
  | .chipWriteTblo _ _ => 0x410600000000
  | .chipWriteTbhi _ _ => 0x410700000000
  | .chipWriteTod10 _ _ => 0x410800000000
  | .chipWriteTodsec _ _ => 0x410900000000
  | .chipWriteTodmin _ _ => 0x410A00000000
  | .chipWriteTodhr _ _ => 0x410B00000000
  | .chipWriteSdr _ _ => 0x410C00000000
  | .chipWriteIcr _ _ => 0x410D00000000
  | .chipWriteCra _ _ => 0x410E00000000
  | .chipWriteCrb _ _ => 0x410F00000000
  | .chipPeek _ _ => 0x420000000000
  | .chipUpdate _ _ => 0x430000000000
  | .portIn _ _ _ => 0x440000000000
  | .portOut _ _ => 0x450000000000
  | .extPulse _ => 0x460000000000
  | .snapSave _ => 0x500000000000
  | .snapRestore _ => 0x510000000000

/-- A row that fixes the opcode alone. -/
theorem mask_op (op sel : BitVec 8) (data : BitVec 32) : cmdWord op sel data &&& 0xFF0000000000 = cmdWord op 0 0 := by
  have hm : (0xFF0000000000 : CmdWord) = cmdWord 0xFF 0 0 := by decide
  rw [hm]
  apply BitVec.eq_of_getLsbD_eq
  intro i hi
  rw [BitVec.getLsbD_and, getLsbD_cmdWord, getLsbD_cmdWord, getLsbD_cmdWord]
  split
  · simp
  · split
    · simp
    · have h8 : i - 32 - 8 < 8 := by omega
      have hf : (0xFF#8).getLsbD (i - 32 - 8) = true := by
        have : ∀ j < 8, (0xFF#8).getLsbD j = true := by decide
        exact this _ h8
      simp [hf]

/-- A row that fixes the opcode and the register index. -/
theorem mask_reg (op : BitVec 8) (k : Nat) (r : BitVec 4) (data : BitVec 32) :
    cmdWord op (selChipReg k r) data &&& 0xFF0F00000000 = cmdWord op (selChipReg 0 r) 0 := by
  have hm : (0xFF0F00000000 : CmdWord) = cmdWord 0xFF (selChipReg 0 0xF) 0 := by decide
  rw [hm]
  apply BitVec.eq_of_getLsbD_eq
  intro i hi
  rw [BitVec.getLsbD_and, getLsbD_cmdWord, getLsbD_cmdWord, getLsbD_cmdWord]
  split
  · simp
  · split
    · rw [getLsbD_selChipReg, getLsbD_selChipReg, getLsbD_selChipReg]
      split
      · rename_i h4
        have hf : (0xF#4).getLsbD (i - 32) = true := by
          have : ∀ j < 4, (0xF#4).getLsbD j = true := by decide
          exact this _ h4
        simp [hf]
      · simp
    · have h8 : i - 32 - 8 < 8 := by omega
      have hf : (0xFF#8).getLsbD (i - 32 - 8) = true := by
        have : ∀ j < 8, (0xFF#8).getLsbD j = true := by decide
        exact this _ h8
      simp [hf]

/-- The law: the operation's word lies on its row (30_encoding.md R84). -/
def EncodesRow.Statement (i : Instr) : Prop := encode i &&& tableMask i = tableMatch i

theorem EncodesRow.domainReset : EncodesRow.Statement .domainReset := (mask_op _ _ _).trans rfl
theorem EncodesRow.chipReset (k : Nat) : EncodesRow.Statement (.chipReset k) := (mask_op _ _ _).trans rfl
theorem EncodesRow.clkAdvance (n : BitVec 32) : EncodesRow.Statement (.clkAdvance n) := (mask_op _ _ _).trans rfl
theorem EncodesRow.clkRead : EncodesRow.Statement .clkRead := (mask_op _ _ _).trans rfl
theorem EncodesRow.guardTick : EncodesRow.Statement .guardTick := (mask_op _ _ _).trans rfl
theorem EncodesRow.alarmSet (a : Nat) (target : Cycle) : EncodesRow.Statement (.alarmSet a target) := (mask_op _ _ _).trans rfl
theorem EncodesRow.alarmUnset (a : Nat) : EncodesRow.Statement (.alarmUnset a) := (mask_op _ _ _).trans rfl
theorem EncodesRow.alarmNext : EncodesRow.Statement .alarmNext := (mask_op _ _ _).trans rfl
theorem EncodesRow.alarmRead (a : Nat) : EncodesRow.Statement (.alarmRead a) := (mask_op _ _ _).trans rfl
theorem EncodesRow.dispatch : EncodesRow.Statement .dispatch := (mask_op _ _ _).trans rfl
theorem EncodesRow.irqAssert (s : Nat) (at_ : Cycle) : EncodesRow.Statement (.irqAssert s at_) := (mask_op _ _ _).trans rfl
theorem EncodesRow.irqDeassert (s : Nat) (at_ : Cycle) : EncodesRow.Statement (.irqDeassert s at_) := (mask_op _ _ _).trans rfl
theorem EncodesRow.irqQuery (l : Line) (at_ : Cycle) : EncodesRow.Statement (.irqQuery l at_) := (mask_op _ _ _).trans rfl
theorem EncodesRow.irqCpumask (m : Bool) : EncodesRow.Statement (.irqCpumask m) := (mask_op _ _ _).trans rfl
theorem EncodesRow.irqStamp (l : Line) : EncodesRow.Statement (.irqStamp l) := (mask_op _ _ _).trans rfl
theorem EncodesRow.chipReadPra (k : Nat) : EncodesRow.Statement (.chipReadPra k) := (mask_reg _ _ _ _).trans rfl
theorem EncodesRow.chipReadPrb (k : Nat) : EncodesRow.Statement (.chipReadPrb k) := (mask_reg _ _ _ _).trans rfl
theorem EncodesRow.chipReadDdra (k : Nat) : EncodesRow.Statement (.chipReadDdra k) := (mask_reg _ _ _ _).trans rfl
theorem EncodesRow.chipReadDdrb (k : Nat) : EncodesRow.Statement (.chipReadDdrb k) := (mask_reg _ _ _ _).trans rfl
theorem EncodesRow.chipReadTalo (k : Nat) : EncodesRow.Statement (.chipReadTalo k) := (mask_reg _ _ _ _).trans rfl
theorem EncodesRow.chipReadTahi (k : Nat) : EncodesRow.Statement (.chipReadTahi k) := (mask_reg _ _ _ _).trans rfl
theorem EncodesRow.chipReadTblo (k : Nat) : EncodesRow.Statement (.chipReadTblo k) := (mask_reg _ _ _ _).trans rfl
theorem EncodesRow.chipReadTbhi (k : Nat) : EncodesRow.Statement (.chipReadTbhi k) := (mask_reg _ _ _ _).trans rfl
theorem EncodesRow.chipReadTod10 (k : Nat) : EncodesRow.Statement (.chipReadTod10 k) := (mask_reg _ _ _ _).trans rfl
theorem EncodesRow.chipReadTodsec (k : Nat) : EncodesRow.Statement (.chipReadTodsec k) := (mask_reg _ _ _ _).trans rfl
theorem EncodesRow.chipReadTodmin (k : Nat) : EncodesRow.Statement (.chipReadTodmin k) := (mask_reg _ _ _ _).trans rfl
theorem EncodesRow.chipReadTodhr (k : Nat) : EncodesRow.Statement (.chipReadTodhr k) := (mask_reg _ _ _ _).trans rfl
theorem EncodesRow.chipReadSdr (k : Nat) : EncodesRow.Statement (.chipReadSdr k) := (mask_reg _ _ _ _).trans rfl
theorem EncodesRow.chipReadIcr (k : Nat) : EncodesRow.Statement (.chipReadIcr k) := (mask_reg _ _ _ _).trans rfl
theorem EncodesRow.chipReadCra (k : Nat) : EncodesRow.Statement (.chipReadCra k) := (mask_reg _ _ _ _).trans rfl
theorem EncodesRow.chipReadCrb (k : Nat) : EncodesRow.Statement (.chipReadCrb k) := (mask_reg _ _ _ _).trans rfl
theorem EncodesRow.chipWritePra (k : Nat) (v : Byte) : EncodesRow.Statement (.chipWritePra k v) := (mask_reg _ _ _ _).trans rfl
theorem EncodesRow.chipWritePrb (k : Nat) (v : Byte) : EncodesRow.Statement (.chipWritePrb k v) := (mask_reg _ _ _ _).trans rfl
theorem EncodesRow.chipWriteDdra (k : Nat) (v : Byte) : EncodesRow.Statement (.chipWriteDdra k v) := (mask_reg _ _ _ _).trans rfl
theorem EncodesRow.chipWriteDdrb (k : Nat) (v : Byte) : EncodesRow.Statement (.chipWriteDdrb k v) := (mask_reg _ _ _ _).trans rfl
theorem EncodesRow.chipWriteTalo (k : Nat) (v : Byte) : EncodesRow.Statement (.chipWriteTalo k v) := (mask_reg _ _ _ _).trans rfl
theorem EncodesRow.chipWriteTahi (k : Nat) (v : Byte) : EncodesRow.Statement (.chipWriteTahi k v) := (mask_reg _ _ _ _).trans rfl
theorem EncodesRow.chipWriteTblo (k : Nat) (v : Byte) : EncodesRow.Statement (.chipWriteTblo k v) := (mask_reg _ _ _ _).trans rfl
theorem EncodesRow.chipWriteTbhi (k : Nat) (v : Byte) : EncodesRow.Statement (.chipWriteTbhi k v) := (mask_reg _ _ _ _).trans rfl
theorem EncodesRow.chipWriteTod10 (k : Nat) (v : Byte) : EncodesRow.Statement (.chipWriteTod10 k v) := (mask_reg _ _ _ _).trans rfl
theorem EncodesRow.chipWriteTodsec (k : Nat) (v : Byte) : EncodesRow.Statement (.chipWriteTodsec k v) := (mask_reg _ _ _ _).trans rfl
theorem EncodesRow.chipWriteTodmin (k : Nat) (v : Byte) : EncodesRow.Statement (.chipWriteTodmin k v) := (mask_reg _ _ _ _).trans rfl
theorem EncodesRow.chipWriteTodhr (k : Nat) (v : Byte) : EncodesRow.Statement (.chipWriteTodhr k v) := (mask_reg _ _ _ _).trans rfl
theorem EncodesRow.chipWriteSdr (k : Nat) (v : Byte) : EncodesRow.Statement (.chipWriteSdr k v) := (mask_reg _ _ _ _).trans rfl
theorem EncodesRow.chipWriteIcr (k : Nat) (v : Byte) : EncodesRow.Statement (.chipWriteIcr k v) := (mask_reg _ _ _ _).trans rfl
theorem EncodesRow.chipWriteCra (k : Nat) (v : Byte) : EncodesRow.Statement (.chipWriteCra k v) := (mask_reg _ _ _ _).trans rfl
theorem EncodesRow.chipWriteCrb (k : Nat) (v : Byte) : EncodesRow.Statement (.chipWriteCrb k v) := (mask_reg _ _ _ _).trans rfl
theorem EncodesRow.chipPeek (k : Nat) (r : Reg) : EncodesRow.Statement (.chipPeek k r) := (mask_op _ _ _).trans rfl
theorem EncodesRow.chipUpdate (k : Nat) (cycle : Cycle) : EncodesRow.Statement (.chipUpdate k cycle) := (mask_op _ _ _).trans rfl
theorem EncodesRow.portIn (k : Nat) (p : PortId) (v : Byte) : EncodesRow.Statement (.portIn k p v) := (mask_op _ _ _).trans rfl
theorem EncodesRow.portOut (k : Nat) (p : PortId) : EncodesRow.Statement (.portOut k p) := (mask_op _ _ _).trans rfl
theorem EncodesRow.extPulse (k : Nat) : EncodesRow.Statement (.extPulse k) := (mask_op _ _ _).trans rfl
theorem EncodesRow.snapSave (k : Nat) : EncodesRow.Statement (.snapSave k) := (mask_op _ _ _).trans rfl
theorem EncodesRow.snapRestore (k : Nat) : EncodesRow.Statement (.snapRestore k) := (mask_op _ _ _).trans rfl

end Sys2Proof.Laws
end

