-- ==== Sys2Proof/Laws/Rebase.lean ====
section
/-! SUPPORT. What a rebase can do, said once (40_counter_guard.md R106, R107), and the small lemmas of shifted
operations and of runs of operations (40_counter_guard.md R108). -/

namespace Sys2Proof

@[simp] theorem shiftCycle_never (sub : Nat) : shiftCycle sub never = never := rfl

theorem shiftCycle_of_ne {sub : Nat} {c : Cycle} (h : c ≠ never) : shiftCycle sub c = c - BitVec.ofNat 32 sub :=
  if_neg h

@[simp] theorem Instr.shift_chipOperand (sub : Nat) (i : Instr) : (i.shift sub).chipOperand = i.chipOperand := by
  cases i <;> rfl

@[simp] theorem Instr.shift_isSnapshot (sub : Nat) (i : Instr) : (i.shift sub).isSnapshot = i.isSnapshot := by
  cases i <;> rfl

end Sys2Proof

namespace Sys2Proof.Machine

/-- A rebase fails only where an armed target is before the new origin; otherwise it shifts every cached cycle value
and leaves every other field (40_counter_guard.md R106). -/
theorem rebaseAll_eq_ok {sub : Nat} {s s' : State} :
    rebaseAll sub s = .ok s' ↔
      (∀ al ∈ s.alarms, al.armed = true → sub ≤ al.target.toNat) ∧
      s' = { s with
        clk := BitVec.ofNat 32 (s.clk.toNat - sub)
        alarms := s.alarms.map (Alarm.rebase sub)
        lineClkMaskable := rebaseStamp sub s.lineClkMaskable
        lineClkUrgent := rebaseStamp sub s.lineClkUrgent
        chips := s.chips.map (Chip.rebase sub) } := by
  unfold rebaseAll
  split
  · rename_i h
    obtain ⟨al, hm, ha⟩ := List.any_eq_true.mp h
    simp only [Bool.and_eq_true, decide_eq_true_eq] at ha
    exact ⟨fun hc => (nomatch hc), fun hc => absurd (hc.1 al hm ha.1) (by omega)⟩
  · rename_i h
    refine ⟨fun hc => ⟨fun al hm ha => ?_, by cases hc; rfl⟩, fun hc => by rw [hc.2]⟩
    refine Nat.le_of_not_lt fun hlt => h (List.any_eq_true.mpr ⟨al, hm, ?_⟩)
    simp [ha, hlt]

@[simp] theorem Chip.rebase_ctl (sub : Nat) (c : Chip) (x : Channel) : (c.rebase sub).ctl x = c.ctl x := by
  cases x <;> rfl

@[simp] theorem Chip.rebase_chanState (sub : Nat) (c : Chip) (x : Channel) :
    (c.rebase sub).chanState x = c.chanState x := by cases x <;> rfl

@[simp] theorem Chip.rebase_oneShot (sub : Nat) (c : Chip) (x : Channel) : (c.rebase sub).oneShot x = c.oneShot x := by
  cases x <;> rfl

@[simp] theorem Chip.rebase_flags (sub : Nat) (c : Chip) : (c.rebase sub).flags = c.flags := rfl

@[simp] theorem Chip.rebase_summary (sub : Nat) (c : Chip) : (c.rebase sub).summary = c.summary := rfl

@[simp] theorem Chip.rebase_srBits (sub : Nat) (c : Chip) : (c.rebase sub).srBits = c.srBits := rfl

@[simp] theorem rebaseChan_latch (sub : Nat) (b : Bool) (ch : Chan) : (rebaseChan sub b ch).latch = ch.latch := by
  cases b <;> rfl

@[simp] theorem rebaseChan_cnt (sub : Nat) (b : Bool) (ch : Chan) : (rebaseChan sub b ch).cnt = ch.cnt := by
  cases b <;> rfl

@[simp] theorem rebaseChan_toggle (sub : Nat) (b : Bool) (ch : Chan) : (rebaseChan sub b ch).toggle = ch.toggle := by
  cases b <;> rfl

/-- No operation runs: no reply, and the state stays. -/
@[simp] theorem runs_nil {s u : State} {rs : List Reply} : Runs [] s rs u ↔ rs = [] ∧ u = s := Iff.rfl

/-- A run begins with its first operation, its payload presented with it (00_scope.md R11). -/
theorem runs_cons {o : Operation} {os : List Operation} {s u : State} {rs : List Reply} :
    Runs (o :: os) s rs u ↔ ∃ t rs', exec o.instr { s with payloadIn := o.payload } = .next t ∧
      rs = t.reply :: rs' ∧ Runs os t rs' u := Iff.rfl

/-- A run of one list after another is the run of both. -/
theorem runs_append {os os' : List Operation} {s u : State} {rs : List Reply} :
    Runs (os ++ os') s rs u ↔ ∃ t rs₁ rs₂, Runs os s rs₁ t ∧ Runs os' t rs₂ u ∧ rs = rs₁ ++ rs₂ := by
  induction os generalizing s rs with
  | nil =>
    constructor
    · exact fun h => ⟨s, [], rs, ⟨rfl, rfl⟩, h, rfl⟩
    · rintro ⟨t, rs₁, rs₂, ⟨rfl, rfl⟩, h, rfl⟩
      exact h
  | cons o os ih =>
    constructor
    · rintro ⟨t, rs', he, rfl, h⟩
      obtain ⟨v, rs₁, rs₂, h₁, h₂, rfl⟩ := ih.mp h
      exact ⟨v, t.reply :: rs₁, rs₂, ⟨t, rs₁, he, rfl, h₁⟩, h₂, rfl⟩
    · rintro ⟨v, _, rs₂, ⟨t, rs₁, he, rfl, h₁⟩, h₂, rfl⟩
      exact ⟨t, rs₁ ++ rs₂, he, rfl, ih.mpr ⟨v, rs₁, rs₂, h₁, h₂, rfl⟩⟩

end Sys2Proof.Machine
end

