-- ==== Sys2Proof/Laws/Scheduler.lean ====
section
/-! SUPPORT. What dispatching can do, said once (41_alarm_scheduler.md R128), and what the opening of an operation on a
chip comes to (41_alarm_scheduler.md R130, 60_exceptions.md R287). -/

namespace Sys2Proof.Machine

/-- A slot is due when it is armed and its target is not after `clk` (41_alarm_scheduler.md R128). -/
theorem Alarm.due_iff {al : Alarm} {c : Cycle} : al.due c = true ↔ al.armed = true ∧ al.target ≤ c := by
  simp [Alarm.due]

/-- The first due slot is a due slot of the table, and no slot before it is due (41_alarm_scheduler.md R128). -/
theorem State.firstDue_eq_some {s : State} {a : Nat} :
    s.firstDue = some a ↔ a < s.alarms.length ∧ (s.alarm a).due s.clk = true ∧ ∀ b < a, (s.alarm b).due s.clk = false := by
  unfold State.firstDue
  rw [List.findIdx?_eq_some_iff_getElem]
  constructor
  · rintro ⟨h, hd, hb⟩
    refine ⟨h, by simpa [State.alarm, List.getD_eq_getElem?_getD, h] using hd, fun b hba => ?_⟩
    have hb' : b < s.alarms.length := Nat.lt_trans hba h
    simpa [State.alarm, List.getD_eq_getElem?_getD, hb'] using hb b hba
  · rintro ⟨h, hd, hb⟩
    refine ⟨h, by simpa [State.alarm, List.getD_eq_getElem?_getD, h] using hd, fun b hba => ?_⟩
    have hb' : b < s.alarms.length := Nat.lt_trans hba h
    simpa [State.alarm, List.getD_eq_getElem?_getD, hb'] using hb b hba

/-- No slot is the first due one exactly when none is due (41_alarm_scheduler.md R128). -/
theorem State.firstDue_eq_none {s : State} : s.firstDue = none ↔ s.NoneDue := by
  unfold State.firstDue State.NoneDue
  rw [List.findIdx?_eq_none_iff]

/-- The loop of `Dispatch()` ends when no slot is due (41_alarm_scheduler.md R128). -/
theorem dispatchLoop_none {s : State} (h : s.firstDue = none) (fuel n : Nat) : dispatchLoop fuel n s = .ok (s, n) := by
  unfold dispatchLoop
  rw [h]

theorem dispatchLoop_zero {s : State} {a : Nat} (h : s.firstDue = some a) (n : Nat) :
    dispatchLoop 0 n s = .error .schedInconsistency := by
  unfold dispatchLoop
  rw [h]

/-- One turn of the loop of `Dispatch()`: the smallest due slot fires (41_alarm_scheduler.md R128). -/
theorem dispatchLoop_succ {s : State} {a : Nat} (h : s.firstDue = some a) (f n : Nat) :
    dispatchLoop (f + 1) n s =
      (fire a (s.clk.toNat - (s.alarm a).target.toNat) s >>= fun s' => dispatchLoop f (n + 1) s') := by
  conv => lhs; unfold dispatchLoop
  rw [h]

/-- All that the loop of `Dispatch()` can answer (41_alarm_scheduler.md R128). -/
theorem dispatchLoop_eq_ok {fuel n m : Nat} {s s' : State} :
    dispatchLoop fuel n s = .ok (s', m) ↔
      (s.firstDue = none ∧ s' = s ∧ m = n) ∨
      (∃ a f s₁, s.firstDue = some a ∧ fuel = f + 1 ∧ fire a (s.clk.toNat - (s.alarm a).target.toNat) s = .ok s₁ ∧
        dispatchLoop f (n + 1) s₁ = .ok (s', m)) := by
  cases h : s.firstDue with
  | none =>
    rw [dispatchLoop_none h]
    constructor
    · intro h'; cases h'; exact .inl ⟨rfl, rfl, rfl⟩
    · rintro (⟨-, rfl, rfl⟩ | ⟨a, f, s₁, ha, -⟩)
      · rfl
      · cases ha
  | some a =>
    cases fuel with
    | zero =>
      rw [dispatchLoop_zero h]
      constructor
      · intro h'; cases h'
      · rintro (⟨h', -⟩ | ⟨b, f, s₁, -, h', -⟩) <;> cases h'
    | succ f =>
      rw [dispatchLoop_succ h, bind_eq_ok]
      constructor
      · rintro ⟨s₁, h₁, h₂⟩; exact .inr ⟨a, f, s₁, rfl, rfl, h₁, h₂⟩
      · rintro (⟨ha, -⟩ | ⟨b, g, s₁, hb, hg, h₁, h₂⟩)
        · cases ha
        · cases hb; cases hg; exact ⟨s₁, h₁, h₂⟩

/-- What every callback of a due slot keeps, the loop of `Dispatch()` keeps, and it ends with no slot due
(41_alarm_scheduler.md R128). -/
theorem dispatchLoop_keeps {P : State → Prop}
    (hf : ∀ s s' a, P s → s.firstDue = some a → fire a (s.clk.toNat - (s.alarm a).target.toNat) s = .ok s' → P s')
    {fuel n m : Nat} {s s' : State} (hs : P s) (h : dispatchLoop fuel n s = .ok (s', m)) : P s' ∧ s'.firstDue = none := by
  induction fuel generalizing n s with
  | zero =>
    rcases dispatchLoop_eq_ok.mp h with ⟨h0, rfl, -⟩ | ⟨a, f, s₁, -, hf0, -⟩
    · exact ⟨hs, h0⟩
    · cases hf0
  | succ f ih =>
    rcases dispatchLoop_eq_ok.mp h with ⟨h0, rfl, -⟩ | ⟨a, g, s₁, ha, hg, h₁, h₂⟩
    · exact ⟨hs, h0⟩
    · cases hg; exact ih (hf s s₁ a hs ha h₁) h₂

/-- With no slot due `Dispatch()` changes nothing and invokes no callback (41_alarm_scheduler.md R128). -/
theorem dispatch_of_noneDue {s : State} (h : s.NoneDue) : dispatch s = .ok (s, 0) :=
  dispatchLoop_none (State.firstDue_eq_none.mpr h) _ 0

/-- The implicit dispatch, then the body (41_alarm_scheduler.md R130). -/
theorem afterDispatch_of_ok {s s₁ : State} {n : Nat} (h : dispatch s = .ok (s₁, n)) (body : State → Result) :
    afterDispatch s body = body s₁ := by
  simp [afterDispatch, h]

/-- All that an operation that begins with the implicit dispatch can answer (41_alarm_scheduler.md R130). -/
theorem afterDispatch_eq_ok {s : State} {body : State → Result} {p : State × Reply} :
    afterDispatch s body = .ok p ↔ ∃ s₁ n, dispatch s = .ok (s₁, n) ∧ body s₁ = .ok p := by
  unfold afterDispatch
  rw [bind_eq_ok]
  constructor
  · rintro ⟨⟨s₁, n⟩, h₁, h₂⟩; exact ⟨s₁, n, h₁, h₂⟩
  · rintro ⟨s₁, n, h₁, h₂⟩; exact ⟨(s₁, n), h₁, h₂⟩

/-- The selector, the implicit dispatch, then the body (60_exceptions.md R287). -/
theorem onChip_eq_ok {k : Nat} {s : State} {body : State → Result} {p : State × Reply} :
    onChip k s body = .ok p ↔ k < s.cfg.nchip ∧ ∃ s₁ n, dispatch s = .ok (s₁, n) ∧ body s₁ = .ok p := by
  unfold onChip
  rw [bind_eq_ok]
  constructor
  · rintro ⟨u, h₁, h₂⟩; exact ⟨selectChip_eq_ok.mp h₁, afterDispatch_eq_ok.mp h₂⟩
  · rintro ⟨h₁, h₂⟩; exact ⟨(), selectChip_ok h₁, afterDispatch_eq_ok.mpr h₂⟩

/-- The selector, the implicit dispatch, the reconciliation, then the body (44_chip_icr_sdr_ports.md R231, R232). -/
theorem accessChip_eq_ok {k : Nat} {s : State} {body : State → Result} {p : State × Reply} :
    accessChip k s body = .ok p ↔
      k < s.cfg.nchip ∧ ∃ s₁ n, dispatch s = .ok (s₁, n) ∧ ∃ s₂, updateTo k s₁.clk s₁ = .ok s₂ ∧ body s₂ = .ok p := by
  unfold accessChip
  rw [onChip_eq_ok]
  simp only [bind_eq_ok]

/-- What an access comes to when its dispatch and its reconciliation succeed. -/
theorem accessChip_of_ok {k n : Nat} {s s₁ s₂ : State} (hk : k < s.cfg.nchip) (h₁ : dispatch s = .ok (s₁, n))
    (h₂ : updateTo k s₁.clk s₁ = .ok s₂) (body : State → Result) : accessChip k s body = body s₂ := by
  simp [accessChip, onChip, selectChip_ok hk, afterDispatch_of_ok h₁, h₂]

/-- A channel with no underflow to process is left alone (43_chip_timers.md R163). -/
theorem chanCatchUp_idle {k : Nat} {x : Channel} {c : Cycle} {s : State}
    (h : (s.chip k).chanState x = .running → c < ((s.chip k).chan x).u) : chanCatchUp k x c s = .ok s := by
  unfold chanCatchUp
  dsimp only
  rw [if_neg]
  rintro ⟨hr, hu⟩
  have h1 := BitVec.lt_def.mp (h hr)
  have h2 := BitVec.le_def.mp hu
  omega

/-- Reconciliation with no underflow to process stores the live values and nothing else (43_chip_timers.md R166). -/
theorem updateTo_idle {k : Nat} {c : Cycle} {s : State} (hc : (s.chip k).rc ≤ c)
    (h : ∀ x, (s.chip k).chanState x = .running → c < ((s.chip k).chan x).u) : updateTo k c s = .ok (storeLive k c s) :=
  updateTo_eq_ok.mpr ⟨hc, s, s, chanCatchUp_idle (h .A), chanCatchUp_idle (h .B), rfl⟩

end Sys2Proof.Machine
end

