-- ==== Sys2Proof/Tests/Slice0.lean ====
section
/-! SUPPORT. The model's own tests: the well-formedness checks, every constructor's decoding from a word written out
from 30_encoding.md R80 and R84, one or two single steps for each operation with the result the spec's examples give,
and for every statement with hypotheses a state and operands that meet them. -/

namespace Sys2Proof.Tests

open Sys2Proof Sys2Proof.Machine

/-! ### Well-formedness: each check refuses a term that breaks it (30_encoding.md R80, R82) -/

theorem test_illformed_chipReset : ¬Instr.WellFormed (.chipReset 16) := by decide
theorem test_illformed_alarmSet : ¬Instr.WellFormed (.alarmSet 256 0) := by decide
theorem test_illformed_alarmUnset : ¬Instr.WellFormed (.alarmUnset 256) := by decide
theorem test_illformed_alarmRead : ¬Instr.WellFormed (.alarmRead 256) := by decide
theorem test_illformed_irqAssert : ¬Instr.WellFormed (.irqAssert 256 0) := by decide
theorem test_illformed_irqDeassert : ¬Instr.WellFormed (.irqDeassert 256 0) := by decide
theorem test_illformed_chipReadPra : ¬Instr.WellFormed (.chipReadPra 16) := by decide
theorem test_illformed_chipReadPrb : ¬Instr.WellFormed (.chipReadPrb 16) := by decide
theorem test_illformed_chipReadDdra : ¬Instr.WellFormed (.chipReadDdra 16) := by decide
theorem test_illformed_chipReadDdrb : ¬Instr.WellFormed (.chipReadDdrb 16) := by decide
theorem test_illformed_chipReadTalo : ¬Instr.WellFormed (.chipReadTalo 16) := by decide
theorem test_illformed_chipReadTahi : ¬Instr.WellFormed (.chipReadTahi 16) := by decide
theorem test_illformed_chipReadTblo : ¬Instr.WellFormed (.chipReadTblo 16) := by decide
theorem test_illformed_chipReadTbhi : ¬Instr.WellFormed (.chipReadTbhi 16) := by decide
theorem test_illformed_chipReadTod10 : ¬Instr.WellFormed (.chipReadTod10 16) := by decide
theorem test_illformed_chipReadTodsec : ¬Instr.WellFormed (.chipReadTodsec 16) := by decide
theorem test_illformed_chipReadTodmin : ¬Instr.WellFormed (.chipReadTodmin 16) := by decide
theorem test_illformed_chipReadTodhr : ¬Instr.WellFormed (.chipReadTodhr 16) := by decide
theorem test_illformed_chipReadSdr : ¬Instr.WellFormed (.chipReadSdr 16) := by decide
theorem test_illformed_chipReadIcr : ¬Instr.WellFormed (.chipReadIcr 16) := by decide
theorem test_illformed_chipReadCra : ¬Instr.WellFormed (.chipReadCra 16) := by decide
theorem test_illformed_chipReadCrb : ¬Instr.WellFormed (.chipReadCrb 16) := by decide
theorem test_illformed_chipWritePra : ¬Instr.WellFormed (.chipWritePra 16 0) := by decide
theorem test_illformed_chipWritePrb : ¬Instr.WellFormed (.chipWritePrb 16 0) := by decide
theorem test_illformed_chipWriteDdra : ¬Instr.WellFormed (.chipWriteDdra 16 0) := by decide
theorem test_illformed_chipWriteDdrb : ¬Instr.WellFormed (.chipWriteDdrb 16 0) := by decide
theorem test_illformed_chipWriteTalo : ¬Instr.WellFormed (.chipWriteTalo 16 0) := by decide
theorem test_illformed_chipWriteTahi : ¬Instr.WellFormed (.chipWriteTahi 16 0) := by decide
theorem test_illformed_chipWriteTblo : ¬Instr.WellFormed (.chipWriteTblo 16 0) := by decide
theorem test_illformed_chipWriteTbhi : ¬Instr.WellFormed (.chipWriteTbhi 16 0) := by decide
theorem test_illformed_chipWriteTod10 : ¬Instr.WellFormed (.chipWriteTod10 16 0) := by decide
theorem test_illformed_chipWriteTodsec : ¬Instr.WellFormed (.chipWriteTodsec 16 0) := by decide
theorem test_illformed_chipWriteTodmin : ¬Instr.WellFormed (.chipWriteTodmin 16 0) := by decide
theorem test_illformed_chipWriteTodhr : ¬Instr.WellFormed (.chipWriteTodhr 16 0) := by decide
theorem test_illformed_chipWriteSdr : ¬Instr.WellFormed (.chipWriteSdr 16 0) := by decide
theorem test_illformed_chipWriteIcr : ¬Instr.WellFormed (.chipWriteIcr 16 0) := by decide
theorem test_illformed_chipWriteCra : ¬Instr.WellFormed (.chipWriteCra 16 0) := by decide
theorem test_illformed_chipWriteCrb : ¬Instr.WellFormed (.chipWriteCrb 16 0) := by decide
theorem test_illformed_chipPeek : ¬Instr.WellFormed (.chipPeek 16 .pra) := by decide
theorem test_illformed_chipUpdate : ¬Instr.WellFormed (.chipUpdate 16 0) := by decide
theorem test_illformed_portIn : ¬Instr.WellFormed (.portIn 16 .a 0) := by decide
theorem test_illformed_portOut : ¬Instr.WellFormed (.portOut 16 .a) := by decide
theorem test_illformed_extPulse : ¬Instr.WellFormed (.extPulse 16) := by decide
theorem test_illformed_snapSave : ¬Instr.WellFormed (.snapSave 16) := by decide
theorem test_illformed_snapRestore : ¬Instr.WellFormed (.snapRestore 16) := by decide
theorem test_wellformed_bounds :
    Instr.WellFormed (.chipWriteCrb 15 0xFF) ∧ Instr.WellFormed (.alarmSet 255 never) ∧
      Instr.WellFormed (.irqAssert 255 0) := by decide

/-! ### Decoding: a word of each row, written out field by field: OP, SEL, DATA (30_encoding.md R80, R84) -/

theorem test_decode_domainReset : decode 0x01_00_00000000 = .ok .domainReset := by decide
theorem test_decode_chipReset : decode 0x02_30_00000000 = .ok (.chipReset 3) := by decide
theorem test_decode_clkAdvance : decode 0x10_00_0000000A = .ok (.clkAdvance 10) := by decide
theorem test_decode_clkRead : decode 0x11_00_00000000 = .ok .clkRead := by decide
theorem test_decode_guardTick : decode 0x12_00_00000000 = .ok .guardTick := by decide
theorem test_decode_alarmSet : decode 0x20_03_000001F4 = .ok (.alarmSet 3 500) := by decide
theorem test_decode_alarmUnset : decode 0x21_FF_00000000 = .ok (.alarmUnset 255) := by decide
theorem test_decode_alarmNext : decode 0x22_00_00000000 = .ok .alarmNext := by decide
theorem test_decode_alarmRead : decode 0x23_07_00000000 = .ok (.alarmRead 7) := by decide
theorem test_decode_dispatch : decode 0x24_00_00000000 = .ok .dispatch := by decide
theorem test_decode_irqAssert : decode 0x30_01_00000007 = .ok (.irqAssert 1 7) := by decide
theorem test_decode_irqDeassert : decode 0x31_80_80000001 = .ok (.irqDeassert 128 0x80000001) := by decide
theorem test_decode_irqQuery : decode 0x32_01_0000000A = .ok (.irqQuery .urgent 10) := by decide
theorem test_decode_irqCpumask : decode 0x33_01_00000000 = .ok (.irqCpumask true) := by decide
theorem test_decode_irqStamp : decode 0x34_00_00000000 = .ok (.irqStamp .maskable) := by decide
theorem test_decode_chipReadPra : decode 0x40_F0_00000000 = .ok (.chipReadPra 15) := by decide
theorem test_decode_chipReadPrb : decode 0x40_E1_00000000 = .ok (.chipReadPrb 14) := by decide
theorem test_decode_chipReadDdra : decode 0x40_D2_00000000 = .ok (.chipReadDdra 13) := by decide
theorem test_decode_chipReadDdrb : decode 0x40_C3_00000000 = .ok (.chipReadDdrb 12) := by decide
theorem test_decode_chipReadTalo : decode 0x40_B4_00000000 = .ok (.chipReadTalo 11) := by decide
theorem test_decode_chipReadTahi : decode 0x40_A5_00000000 = .ok (.chipReadTahi 10) := by decide
theorem test_decode_chipReadTblo : decode 0x40_96_00000000 = .ok (.chipReadTblo 9) := by decide
theorem test_decode_chipReadTbhi : decode 0x40_87_00000000 = .ok (.chipReadTbhi 8) := by decide
theorem test_decode_chipReadTod10 : decode 0x40_78_00000000 = .ok (.chipReadTod10 7) := by decide
theorem test_decode_chipReadTodsec : decode 0x40_69_00000000 = .ok (.chipReadTodsec 6) := by decide
theorem test_decode_chipReadTodmin : decode 0x40_5A_00000000 = .ok (.chipReadTodmin 5) := by decide
theorem test_decode_chipReadTodhr : decode 0x40_4B_00000000 = .ok (.chipReadTodhr 4) := by decide
theorem test_decode_chipReadSdr : decode 0x40_3C_00000000 = .ok (.chipReadSdr 3) := by decide
theorem test_decode_chipReadIcr : decode 0x40_2D_00000000 = .ok (.chipReadIcr 2) := by decide
theorem test_decode_chipReadCra : decode 0x40_1E_00000000 = .ok (.chipReadCra 1) := by decide
theorem test_decode_chipReadCrb : decode 0x40_0F_00000000 = .ok (.chipReadCrb 0) := by decide
theorem test_decode_chipWritePra : decode 0x41_00_00000081 = .ok (.chipWritePra 0 0x81) := by decide
theorem test_decode_chipWritePrb : decode 0x41_11_00000082 = .ok (.chipWritePrb 1 0x82) := by decide
theorem test_decode_chipWriteDdra : decode 0x41_22_00000083 = .ok (.chipWriteDdra 2 0x83) := by decide
theorem test_decode_chipWriteDdrb : decode 0x41_33_00000084 = .ok (.chipWriteDdrb 3 0x84) := by decide
theorem test_decode_chipWriteTalo : decode 0x41_44_00000085 = .ok (.chipWriteTalo 4 0x85) := by decide
theorem test_decode_chipWriteTahi : decode 0x41_55_00000086 = .ok (.chipWriteTahi 5 0x86) := by decide
theorem test_decode_chipWriteTblo : decode 0x41_66_00000087 = .ok (.chipWriteTblo 6 0x87) := by decide
theorem test_decode_chipWriteTbhi : decode 0x41_77_00000088 = .ok (.chipWriteTbhi 7 0x88) := by decide
theorem test_decode_chipWriteTod10 : decode 0x41_88_00000089 = .ok (.chipWriteTod10 8 0x89) := by decide
theorem test_decode_chipWriteTodsec : decode 0x41_99_0000008A = .ok (.chipWriteTodsec 9 0x8a) := by decide
theorem test_decode_chipWriteTodmin : decode 0x41_AA_0000008B = .ok (.chipWriteTodmin 10 0x8b) := by decide
theorem test_decode_chipWriteTodhr : decode 0x41_BB_0000008C = .ok (.chipWriteTodhr 11 0x8c) := by decide
theorem test_decode_chipWriteSdr : decode 0x41_CC_0000008D = .ok (.chipWriteSdr 12 0x8d) := by decide
theorem test_decode_chipWriteIcr : decode 0x41_DD_0000008E = .ok (.chipWriteIcr 13 0x8e) := by decide
theorem test_decode_chipWriteCra : decode 0x41_EE_0000008F = .ok (.chipWriteCra 14 0x8f) := by decide
theorem test_decode_chipWriteCrb : decode 0x41_FF_00000090 = .ok (.chipWriteCrb 15 0x90) := by decide
theorem test_decode_chipPeek : decode 0x42_4D_00000000 = .ok (.chipPeek 4 .icr) := by decide
theorem test_decode_chipUpdate : decode 0x43_50_00000014 = .ok (.chipUpdate 5 20) := by decide
theorem test_decode_portIn : decode 0x44_21_000000A5 = .ok (.portIn 2 .b 0xA5) := by decide
theorem test_decode_portOut : decode 0x45_F0_00000000 = .ok (.portOut 15 .a) := by decide
theorem test_decode_extPulse : decode 0x46_10_00000000 = .ok (.extPulse 1) := by decide
theorem test_decode_snapSave : decode 0x50_30_00000000 = .ok (.snapSave 3) := by decide
theorem test_decode_snapRestore : decode 0x51_80_00000000 = .ok (.snapRestore 8) := by decide
/-- Fields an operation does not use are ignored (30_encoding.md R82). -/
theorem test_decode_ignores_unused :
    decode 0x02_3F_FFFFFFFF = .ok (.chipReset 3) ∧ decode 0x45_FF_12345678 = .ok (.portOut 15 .b) ∧
      decode 0x41_0E_FFFFFF11 = .ok (.chipWriteCra 0 0x11) := by decide
/-- The ends of every gap of the opcode table are rejected by name (30_encoding.md R87). -/
theorem test_decode_rejects_gaps :
    [0x00, 0x03, 0x0F, 0x13, 0x1F, 0x25, 0x2F, 0x35, 0x3F, 0x47, 0x4F, 0x52, 0xFF].all (fun o => match decode (BitVec.ofNat 48 (o * 2 ^ 40)) with | .ok _ => false | .error e => decide (e = .illegalOp (BitVec.ofNat 8 o))) = true := by decide
theorem test_decode_table_word :
    decodeTableWord 48 0x010000000000 = some .domainReset ∧ decodeTableWord 48 0 = none := by decide

/-! ### Small states: the reference configuration (00_scope.md R10) with one chip -/

/-- The state after an operation, or the state itself where there is none. -/
def run (i : Instr) (s : State) : State :=
  match exec i s with
  | .next t => t
  | _ => s

/-- The chip right after reset. -/
def chip0 : Chip := Chip.atReset 0 0

/-- The reference machine at cycle `clk` with chip `c`, next ticks at 100000 and the channel alarms as its `U`. -/
def at_ (clk : Cycle) (c : Chip) : State :=
  { State.reset with
    clk := clk
    chips := [c]
    src := [c.summary, false]
    alarms :=
      [if c.chanState .A = .running then ⟨true, c.chanA.u⟩ else ⟨false, never⟩,
       if c.chanState .B = .running then ⟨true, c.chanB.u⟩ else ⟨false, never⟩, ⟨true, 100000⟩, ⟨false, never⟩] }

/-- Channel A free-running with latch 9, started at cycle 0, its interrupt enabled: the first underflow is at cycle 10
(95_test_vectors.md V1). -/
def free9 : Chip := { chip0 with chanA := ⟨9, 9, 10, false⟩, cra := 0x01, mask := 0x01 }

/-- Both channels counting external pulses, A at `a` with latch 2, B at `b` with latch 3. -/
def pulsed (cra crb : Byte) (a b : Count) : Chip :=
  { chip0 with chanA := ⟨2, a, never, false⟩, chanB := ⟨3, b, never, false⟩, cra := cra, crb := crb }

/-- The machine at cycle `clk` with the tick a cycle ahead, for cycles beyond the first tick. -/
def late (clk : Cycle) : State :=
  { State.reset with clk := clk, alarms := [⟨false, never⟩, ⟨false, never⟩, ⟨true, clk + 1⟩, ⟨false, never⟩] }

/-- External slot 3 armed at `target`, at cycle `clk`. -/
def armed3 (clk target : Cycle) : State :=
  { at_ clk chip0 with alarms := [⟨false, never⟩, ⟨false, never⟩, ⟨true, 100000⟩, ⟨true, target⟩] }

/-- A state in the fault state. -/
def faulted : State := { State.reset with fault := some .badSelector }

/-- The reference machine without the snapshot annex. -/
def noAnnex : State := { State.reset with cfg := { Config.reference with hasSnapshot := false } }

/-! ### One or two steps of each operation, with the spec's own results -/

/-- 40_counter_guard.md R100 -/
theorem test_clkAdvance : (run (.clkAdvance 10) (at_ 25 chip0)).clk = 35 := by decide
/-- 40_counter_guard.md R109 -/
theorem test_clkAdvance_overflow :
    (run (.clkAdvance 1) (late 0xFFFFFFFE)).status = 3 ∧
      (run (.clkAdvance 1) (late 0xFFFFFFFE)).clk = 0xFFFFFFFE := by decide
/-- 40_counter_guard.md R101 -/
theorem test_clkRead : (run .clkRead (at_ 35 chip0)).resp = 35 := by decide
/-- 40_counter_guard.md R103 -/
theorem test_guardTick :
    (run .guardTick (late 1000000001)).clk = 1000000 ∧
      (run .guardTick (late 1000000001)).resp = 999000001 := by decide
/-- 40_counter_guard.md R103: the comparison is strict -/
theorem test_guardTick_at_mark :
    (run .guardTick (late 1000000000)).clk = 1000000000 ∧ (run .guardTick (late 1000000000)).resp = 0 := by decide
/-- 41_alarm_scheduler.md R122 -/
theorem test_alarmSet : (run (.alarmSet 3 500) State.reset).alarm 3 = ⟨true, 500⟩ := by decide
/-- 41_alarm_scheduler.md R121 -/
theorem test_alarmSet_owned : (run (.alarmSet 2 500) State.reset).status = 2 := by decide
/-- 41_alarm_scheduler.md R124 -/
theorem test_alarmUnset : (run (.alarmUnset 3) (armed3 0 500)).alarm 3 = ⟨false, never⟩ := by decide
/-- 70_reset_and_hazards.md R310 -/
theorem test_alarmNext : (run .alarmNext State.reset).resp = 100000 := by decide
/-- 41_alarm_scheduler.md R127 -/
theorem test_alarmRead :
    (run (.alarmRead 2) State.reset).resp = 100000 ∧ (run (.alarmRead 3) State.reset).resp = never := by decide
/-- 41_alarm_scheduler.md R128, 43_chip_timers.md R161 -/
theorem test_dispatch :
    (run .dispatch (at_ 35 free9)).resp = 1 ∧ ((run .dispatch (at_ 35 free9)).chip 0).chanA.u = 40 := by decide
/-- 41_alarm_scheduler.md R129 -/
theorem test_dispatch_external :
    (run .dispatch (armed3 12 5)).events = [.fired 3 7] ∧
      (run .dispatch (armed3 12 5)).alarm 3 = ⟨false, never⟩ := by decide
/-- 42_interrupt_aggregator.md R144 -/
theorem test_irqAssert :
    (run (.irqAssert 1 7) (at_ 7 chip0)).resp = 1 ∧ (run (.irqAssert 1 7) (at_ 7 chip0)).nmiOut = true ∧
      (run (.irqAssert 1 7) (at_ 7 chip0)).lineClkUrgent = 7 := by decide
/-- 60_exceptions.md R284 -/
theorem test_irqAssert_future : (run (.irqAssert 1 8) (at_ 7 chip0)).status = 4 := by decide
/-- 42_interrupt_aggregator.md R145 -/
theorem test_irqDeassert :
    (run (.irqDeassert 1 7) { at_ 7 chip0 with src := [false, true], lineClkUrgent := 7 }).nmiOut = false ∧
      (run (.irqDeassert 1 7) { at_ 7 chip0 with src := [false, true], lineClkUrgent := 7 }).lineClkUrgent = 7 := by decide
/-- 42_interrupt_aggregator.md R146 -/
theorem test_irqQuery :
    (run (.irqQuery .maskable 10) (at_ 10 free9)).resp = 1 ∧
      (run (.irqQuery .maskable 9) (at_ 9 free9)).resp = 0 := by decide
/-- 42_interrupt_aggregator.md R148 -/
theorem test_irqCpumask : (run (.irqCpumask true) State.reset).cpuMasked = true := by decide
/-- 42_interrupt_aggregator.md R147 -/
theorem test_irqStamp : (run (.irqStamp .maskable) (at_ 35 free9)).resp = 10 := by decide
/-- 70_reset_and_hazards.md R310 -/
theorem test_domainReset :
    (run .domainReset { faulted with clk := 5 }).clk = 0 ∧
      (run .domainReset { faulted with clk := 5 }).fault = none := by decide
/-- 70_reset_and_hazards.md R311 -/
theorem test_chipReset :
    (run (.chipReset 0) (at_ 5000 { free9 with flags := 0x01, chanA := ⟨9, 9, 5010, false⟩, rc := 5000 })).alarm 2 = ⟨true, 105000⟩ ∧ (run (.chipReset 0) (at_ 5000 { free9 with flags := 0x01, chanA := ⟨9, 9, 5010, false⟩, rc := 5000 })).irqOut = false := by decide
/-- 44_chip_icr_sdr_ports.md R220 -/
theorem test_readPra : (run (.chipReadPra 0) State.reset).resp = 0xFF := by decide
/-- 44_chip_icr_sdr_ports.md R222 -/
theorem test_readPrb :
    (run (.chipReadPrb 0) (at_ 0 { chip0 with cra := 0x02, chanA := ⟨0, 0, never, true⟩, ddrb := 0xFF })).resp = 0x40 := by decide
/-- 44_chip_icr_sdr_ports.md R224 -/
theorem test_readDdra : (run (.chipReadDdra 0) (at_ 0 { chip0 with ddra := 0x5A })).resp = 0x5A := by decide
/-- 44_chip_icr_sdr_ports.md R227 -/
theorem test_readDdrb : (run (.chipReadDdrb 0) (at_ 0 { chip0 with ddrb := 0xA5 })).resp = 0xA5 := by decide
/-- 43_chip_timers.md R186: "5 (10 - (35-30))" -/
theorem test_readTalo : (run (.chipReadTalo 0) (at_ 35 free9)).resp = 5 := by decide
/-- 43_chip_timers.md R187 -/
theorem test_readTahi :
    (run (.chipReadTahi 0) (at_ 0 { chip0 with chanA := ⟨0, 0x1234, never, false⟩ })).resp = 0x12 := by decide
/-- 43_chip_timers.md R188 -/
theorem test_readTblo :
    (run (.chipReadTblo 0) (at_ 0 { chip0 with chanB := ⟨0, 0x1234, never, false⟩ })).resp = 0x34 := by decide
/-- 43_chip_timers.md R189 -/
theorem test_readTbhi :
    (run (.chipReadTbhi 0) (at_ 0 { chip0 with chanB := ⟨0, 0x1234, never, false⟩ })).resp = 0x12 := by decide
/-- 45_chip_tod.md R246 -/
theorem test_readTod10 :
    (run (.chipReadTod10 0) (at_ 0 { chip0 with tod := ⟨4, 0x21, 0x32, 0x83⟩, todLatch := ⟨3, 0x20, 0x31, 0x82⟩, todLatched := true })).resp = 3 ∧ ((run (.chipReadTod10 0) (at_ 0 { chip0 with tod := ⟨4, 0x21, 0x32, 0x83⟩, todLatch := ⟨3, 0x20, 0x31, 0x82⟩, todLatched := true })).chip 0).todLatched = false := by decide
/-- 45_chip_tod.md R247 -/
theorem test_readTodsec :
    (run (.chipReadTodsec 0) (at_ 0 { chip0 with tod := ⟨4, 0x21, 0x32, 0x83⟩ })).resp = 0x21 ∧
      ((run (.chipReadTodsec 0) (at_ 0 { chip0 with tod := ⟨4, 0x21, 0x32, 0x83⟩ })).chip 0).todLatched = true := by decide
/-- 45_chip_tod.md R248 -/
theorem test_readTodmin :
    (run (.chipReadTodmin 0) (at_ 0 { chip0 with tod := ⟨4, 0x21, 0x32, 0x83⟩, todLatch := ⟨3, 0x20, 0x31, 0x82⟩, todLatched := true })).resp = 0x31 := by decide
/-- 45_chip_tod.md R249 -/
theorem test_readTodhr :
    (run (.chipReadTodhr 0) (at_ 0 { chip0 with tod := ⟨4, 0x21, 0x32, 0x83⟩ })).resp = 0x83 ∧
      ((run (.chipReadTodhr 0) (at_ 0 { chip0 with tod := ⟨4, 0x21, 0x32, 0x83⟩ })).chip 0).todLatch = ⟨4, 0x21, 0x32, 0x83⟩ := by decide
/-- 44_chip_icr_sdr_ports.md R216 -/
theorem test_readSdr :
    (run (.chipReadSdr 0) (at_ 0 { chip0 with sdr := 0xA5, flags := 0x08 })).resp = 0xA5 ∧
      ((run (.chipReadSdr 0) (at_ 0 { chip0 with sdr := 0xA5, flags := 0x08 })).chip 0).flags = 0x08 := by decide
/-- 44_chip_icr_sdr_ports.md R211 -/
theorem test_readIcr :
    (run (.chipReadIcr 0) (at_ 10 free9)).resp = 0x81 ∧ (run (.chipReadIcr 0) (at_ 10 free9)).irqOut = false ∧
      ((run (.chipReadIcr 0) (at_ 10 free9)).chip 0).lastRead = some 10 := by decide
/-- 44_chip_icr_sdr_ports.md R211: a flag that is not enabled leaves bit 7 clear -/
theorem test_readIcr_disabled : (run (.chipReadIcr 0) (at_ 0 { chip0 with flags := 0x06 })).resp = 0x06 := by decide
/-- 43_chip_timers.md R196 -/
theorem test_readCra :
    (run (.chipReadCra 0) (at_ 3 { chip0 with chanA := ⟨3, 3, 4, false⟩, cra := 0x09 })).resp = 0x09 ∧
      (run (.chipReadCra 0) (at_ 4 { chip0 with chanA := ⟨3, 3, 4, false⟩, cra := 0x09 })).resp = 0x08 := by decide
/-- 43_chip_timers.md R197: a one-shot underflow reached through the cascade clears bit 0 -/
theorem test_readCrb :
    (run (.chipReadCrb 0) (at_ 4 { chip0 with chanA := ⟨3, 3, 4, false⟩, cra := 0x01, chanB := ⟨3, 1, never, false⟩, crb := 0x49 })).resp = 0x48 := by decide
/-- 44_chip_icr_sdr_ports.md R221 -/
theorem test_writePra :
    ((run (.chipWritePra 0 0x5A) State.reset).chip 0).pra = 0x5A ∧
      (run (.chipWritePra 0 0x5A) State.reset).portOut 0 .a = 0xFF := by decide
/-- 44_chip_icr_sdr_ports.md R223 -/
theorem test_writePrb : ((run (.chipWritePrb 0 0x5A) State.reset).chip 0).prb = 0x5A := by decide
/-- 44_chip_icr_sdr_ports.md R225, R226 -/
theorem test_writeDdra : (run (.chipWriteDdra 0 0x0F) State.reset).portOut 0 .a = 0xF0 := by decide
/-- 44_chip_icr_sdr_ports.md R228, R226 -/
theorem test_writeDdrb : (run (.chipWriteDdrb 0 0x0F) State.reset).portOut 0 .b = 0xF0 := by decide
/-- 43_chip_timers.md R192 -/
theorem test_writeTalo :
    ((run (.chipWriteTalo 0 0x09) (at_ 0 { chip0 with chanA := ⟨0x1234, 7, never, false⟩ })).chip 0).chanA = ⟨0x1209, 7, never, false⟩ := by decide
/-- 43_chip_timers.md R193 -/
theorem test_writeTalo_through :
    ((run (.chipWriteTalo 0 4) (at_ 11 { free9 with chanA := ⟨9, 9, 20, true⟩, rc := 10 })).chip 0).chanA = ⟨4, 4, 15, true⟩ ∧ ((run (.chipWriteTalo 0 4) (at_ 12 { free9 with chanA := ⟨9, 9, 20, true⟩, rc := 10 })).chip 0).chanA = ⟨4, 8, 20, true⟩ := by decide
/-- 43_chip_timers.md R193 -/
theorem test_writeTahi :
    ((run (.chipWriteTahi 0 0x00) (at_ 0 { chip0 with chanA := ⟨0x1209, 7, never, false⟩ })).chip 0).chanA.latch = 0x0009 := by decide
/-- 43_chip_timers.md R194 -/
theorem test_writeTblo :
    ((run (.chipWriteTblo 0 0x09) (at_ 0 { chip0 with chanB := ⟨0x1234, 7, never, false⟩ })).chip 0).chanB = ⟨0x1209, 7, never, false⟩ := by decide
/-- 43_chip_timers.md R195 -/
theorem test_writeTbhi :
    ((run (.chipWriteTbhi 0 0x09) (at_ 0 { chip0 with chanB := ⟨0x1234, 7, never, false⟩ })).chip 0).chanB.latch = 0x0934 := by decide
/-- 45_chip_tod.md R250 -/
theorem test_writeTod10 :
    ((run (.chipWriteTod10 0 0xF7) (at_ 0 { chip0 with todStopped := true })).chip 0).tod = ⟨7, 0, 0, 0⟩ ∧
      ((run (.chipWriteTod10 0 0xF7) (at_ 0 { chip0 with todStopped := true })).chip 0).todStopped = false := by decide
/-- 45_chip_tod.md R251 -/
theorem test_writeTodsec : ((run (.chipWriteTodsec 0 0xD9) State.reset).chip 0).tod = ⟨0, 0x59, 0, 0⟩ := by decide
/-- 45_chip_tod.md R245, R252 -/
theorem test_writeTodmin :
    ((run (.chipWriteTodmin 0 0x59) (at_ 0 { chip0 with crb := 0x80 })).chip 0).todAlarm = ⟨0, 0, 0x59, 0⟩ := by decide
/-- 45_chip_tod.md R253 -/
theorem test_writeTodhr :
    ((run (.chipWriteTodhr 0 0x91) State.reset).chip 0).tod = ⟨0, 0, 0, 0x91⟩ ∧
      ((run (.chipWriteTodhr 0 0x91) State.reset).chip 0).todStopped = true := by decide
/-- 44_chip_icr_sdr_ports.md R217 -/
theorem test_writeSdr :
    ((run (.chipWriteSdr 0 0xA5) (at_ 0 { chip0 with cra := 0x40 })).chip 0).srBits = 16 ∧
      ((run (.chipWriteSdr 0 0xA5) State.reset).chip 0).srBits = 0 := by decide
/-- 44_chip_icr_sdr_ports.md R213 -/
theorem test_writeIcr :
    ((run (.chipWriteIcr 0 0xFF) State.reset).chip 0).mask = 0x0F ∧
      ((run (.chipWriteIcr 0 0x03) (at_ 0 { chip0 with mask := 0x01 })).chip 0).mask = 0x00 := by decide
/-- 44_chip_icr_sdr_ports.md R213 -/
theorem test_writeIcr_asserts :
    (run (.chipWriteIcr 0 0x81) (at_ 7 { chip0 with flags := 0x01 })).irqOut = true ∧
      (run (.chipWriteIcr 0 0x81) (at_ 7 { chip0 with flags := 0x01 })).lineClkMaskable = 7 := by decide
/-- 43_chip_timers.md R198 -/
theorem test_writeCra_start :
    ((run (.chipWriteCra 0 0x01) (at_ 0 { chip0 with chanA := ⟨9, 9, never, false⟩ })).chip 0).chanA.u = 10 ∧
      (run (.chipWriteCra 0 0x01) (at_ 0 { chip0 with chanA := ⟨9, 9, never, false⟩ })).alarm 0 = ⟨true, 10⟩ ∧
      ((run (.chipWriteCra 0 0x11) (at_ 0 { chip0 with chanA := ⟨9, 9, never, false⟩ })).chip 0).chanA.u = 11 ∧
      ((run (.chipWriteCra 0 0x11) (at_ 0 { chip0 with chanA := ⟨9, 9, never, false⟩ })).chip 0).cra = 0x01 := by decide
/-- 43_chip_timers.md R172 -/
theorem test_writeCra_stop :
    ((run (.chipWriteCra 0 0x00) (at_ 36 { free9 with chanA := ⟨9, 9, 40, true⟩, rc := 30 })).chip 0).chanA = ⟨9, 3, never, true⟩ := by decide
/-- 43_chip_timers.md R199 -/
theorem test_writeCrb :
    ((run (.chipWriteCrb 0 0x49) (at_ 0 { chip0 with chanB := ⟨3, 3, never, false⟩ })).chip 0).chanState .B = .runningCascade ∧ (run (.chipWriteCrb 0 0x49) (at_ 0 { chip0 with chanB := ⟨3, 3, never, false⟩ })).alarm 1 = ⟨false, never⟩ := by decide
/-- 44_chip_icr_sdr_ports.md R212 -/
theorem test_peek :
    (run (.chipPeek 0 .icr) (at_ 10 free9)).resp = 0x81 ∧
      ((run (.chipPeek 0 .icr) (at_ 10 free9)).chip 0).flags = 0x01 := by decide
/-- 43_chip_timers.md R200 -/
theorem test_update :
    ((run (.chipUpdate 0 20) (at_ 50 chip0)).chip 0).rc = 20 ∧
      (run (.chipUpdate 0 10) (at_ 50 { chip0 with rc := 20 })).status = 4 := by decide
/-- 44_chip_icr_sdr_ports.md R229 -/
theorem test_portIn : ((run (.portIn 0 .b 0xA5) State.reset).chip 0).inB = 0xA5 := by decide
/-- 44_chip_icr_sdr_ports.md R230 -/
theorem test_portOut :
    (run (.portOut 0 .a) State.reset).resp = 0xFF ∧ (run (.portOut 0 .b) State.reset).resp = 0xFF := by decide
/-- 43_chip_timers.md R201 -/
theorem test_extPulse :
    ((run (.extPulse 0) (at_ 0 (pulsed 0x21 0x00 2 0))).chip 0).chanA = ⟨2, 1, never, false⟩ := by decide
/-- 43_chip_timers.md R201 -/
theorem test_extPulse_underflow :
    ((run (.extPulse 0) (at_ 0 (pulsed 0x21 0x00 1 0))).chip 0).chanA = ⟨2, 2, never, true⟩ ∧
      ((run (.extPulse 0) (at_ 0 (pulsed 0x21 0x00 1 0))).chip 0).flags = 0x01 := by decide

/-- A 39-byte payload: channel A running with latch 9 at 6, its interrupt set and enabled, the next tick 500 cycles
on (46_snapshot.md R261). -/
def payload : List Byte :=
  [1, 0, 0x11, 0x22, 0x33, 0x44, 6, 0, 7, 0] ++ [1, 2, 3, 4, 5, 6, 7, 8, 9, 0x10, 0x11, 0x12] ++
  [0x03, 0xA5, 0x0F, 0x01, 0x08, 9, 0, 3, 0, 0x01, 0xC0, 16, 130] ++ [0xF4, 0x01, 0, 0]

/-- 46_snapshot.md R261, R262 -/
theorem test_snapSave :
    (run (.snapSave 0) (at_ 35 free9)).resp = 39 ∧
      (run (.snapSave 0) (at_ 35 free9)).payloadOut.take 8 = [1, 0, 0, 0, 0, 0, 5, 0] := by decide
/-- 46_snapshot.md R266, R268, R263 -/
theorem test_snapRestore :
    ((run (.snapRestore 0) { at_ 35 chip0 with payloadIn := payload }).chip 0).chanA = ⟨9, 6, 41, true⟩ ∧
      (run (.snapRestore 0) { at_ 35 chip0 with payloadIn := payload }).alarm 2 = ⟨true, 535⟩ ∧
      ((run (.snapRestore 0) { at_ 35 chip0 with payloadIn := payload }).chip 0).lastRead = some 33 := by decide
/-- 46_snapshot.md R267 -/
theorem test_snapRestore_short :
    (run (.snapRestore 0) { at_ 35 chip0 with payloadIn := payload.take 38 }).status = 5 ∧
      (run (.snapRestore 0) { at_ 35 chip0 with payloadIn := payload.take 38 }).fault = none := by decide
/-- 45_chip_tod.md R241, its examples -/
theorem test_todInc_midnight :
    todInc ⟨9, 0x59, 0x59, 0x11⟩ = ⟨0, 0x00, 0x00, 0x92⟩ ∧ todInc ⟨9, 0x59, 0x59, 0x92⟩ = ⟨0, 0, 0, 0x81⟩ ∧
      todInc ⟨9, 0x59, 0x59, 0x09⟩ = ⟨0, 0, 0, 0x10⟩ ∧ todInc ⟨3, 0x12, 0x34, 0x05⟩ = ⟨4, 0x12, 0x34, 0x05⟩ ∧
      todInc ⟨0x0F, 0, 0, 0⟩ = ⟨0, 0, 0, 0⟩ := by decide
/-- one step takes the operation presented -/
theorem test_step_runs_first :
    (match step (State.reset.withFetchWord 48 0x10_00_0000000A) with | .next t => t.clk | _ => 0) = 10 := by decide
/-- 70_reset_and_hazards.md R310: the reset operation and the reset state agree -/
theorem test_reset_agrees :
    run .domainReset State.reset = { State.resetOf Config.reference Config.freeLatch with draws := 2 } := by rfl

/-! ### States that meet the hypotheses of the statements -/

theorem witness_ready_reset : State.Ready State.reset := ⟨inv_of_check (by decide), rfl, by decide⟩
theorem witness_ready_due : State.Ready (at_ 35 free9) := ⟨inv_of_check (by decide), rfl, by decide⟩
theorem witness_ready_mark : State.Ready (late 1000000000) := ⟨inv_of_check (by decide), rfl, by decide⟩
theorem witness_ready_above_mark : State.Ready (late 1000000001) := ⟨inv_of_check (by decide), rfl, by decide⟩
theorem witness_ready_fired : State.Ready (armed3 12 5) := ⟨inv_of_check (by decide), rfl, by decide⟩
theorem witness_ready_pulseA :
    State.Ready (at_ 5 (pulsed 0x21 0x00 2 0)) := ⟨inv_of_check (by decide), rfl, by decide⟩
theorem witness_ready_pulseA_underflow :
    State.Ready (at_ 5 (pulsed 0x21 0x00 1 0)) := ⟨inv_of_check (by decide), rfl, by decide⟩
theorem witness_ready_pulseB :
    State.Ready (at_ 5 (pulsed 0x00 0x21 0 2)) := ⟨inv_of_check (by decide), rfl, by decide⟩
theorem witness_ready_pulseB_underflow :
    State.Ready (at_ 5 (pulsed 0x00 0x21 0 1)) := ⟨inv_of_check (by decide), rfl, by decide⟩
theorem witness_ready_updated :
    State.Ready (at_ 50 { chip0 with rc := 20 }) := ⟨inv_of_check (by decide), rfl, by decide⟩
theorem witness_ready_compare :
    State.Ready (at_ 5 { chip0 with crb := 0x80 }) := ⟨inv_of_check (by decide), rfl, by decide⟩
theorem witness_ready_payload :
    State.Ready { at_ 35 chip0 with payloadIn := payload } := ⟨inv_of_check (by decide), rfl, by decide⟩
theorem witness_ready_short :
    State.Ready { at_ 35 chip0 with payloadIn := payload.take 38 } := ⟨inv_of_check (by decide), rfl, by decide⟩
theorem witness_ready_major :
    State.Ready { at_ 35 chip0 with payloadIn := 2 :: payload.tail } := ⟨inv_of_check (by decide), rfl, by decide⟩
theorem witness_ready_minor :
    State.Ready { at_ 35 chip0 with payloadIn := 1 :: 1 :: payload.drop 2 } := ⟨inv_of_check (by decide), rfl, by decide⟩
theorem witness_ready_far_tick :
    State.Ready { at_ 35 chip0 with payloadIn := payload.take 35 ++ [0xFF, 0xFF, 0xFF, 0xFF] } := ⟨inv_of_check (by decide), rfl, by decide⟩
theorem witness_EncodeOfDecode : decode 0x41_0E_FFFFFF11 = .ok (.chipWriteCra 0 0x11) := by decide
theorem witness_StepRuns :
    (State.reset.withFetchWord 48 0x110000000000).port = [⟨0x110000000000, []⟩] ∧
      decode 0x110000000000 = .ok .clkRead ∧ State.reset.port = [] := by decide
theorem witness_IllegalOpcodes :
    (opField 0x000000000000).toNat ∉ opcodes ∧ (opField 0x52FFFFFFFFFF).toNat ∉ opcodes ∧ State.reset.fault = none ∧
      (State.reset.withFetchWord 48 0x520000000000).port = [⟨0x520000000000, []⟩] ∧ noAnnex.fault = none ∧
      noAnnex.cfg.hasSnapshot = false ∧ (run (.snapSave 0) noAnnex).fault = some .illegalOp := by decide
theorem witness_FaultState :
    faulted.fault = some .badSelector ∧ (faulted.withFetchWord 48 0x020000000000).port = [⟨0x020000000000, []⟩] ∧
      decode 0x020000000000 ≠ .ok .domainReset ∧
      (faulted.withFetchWord 48 0x020000000000).fault = some .badSelector := by decide
theorem witness_wf :
    Config.reference.Wf ∧ faulted.cfg.Wf := ⟨cfg_wf_of_check (by decide), cfg_wf_of_check (by decide)⟩
theorem witness_BadSelectors :
    Instr.chipOperand (.chipReset 1) = some 1 ∧ State.reset.cfg.nchip ≤ 1 ∧ State.reset.cfg.nAlarms ≤ 4 ∧
      2 < 3 * State.reset.cfg.nchip ∧ State.reset.cfg.nSources ≤ 2 ∧ 0 < State.reset.cfg.nchip := by decide
theorem witness_NoOverflow :
    exec .clkRead State.reset = .next { State.reset with resp := 0 } ∧ (∀ n, Instr.clkRead ≠ .clkAdvance n) ∧
      ∀ a target, Instr.clkRead ≠ .alarmSet a target := ⟨rfl, fun _ h => (nomatch h), fun _ _ h => (nomatch h)⟩
theorem witness_StepNext : State.reset.Inv ∧ step State.reset = .next State.reset := ⟨inv_of_check (by decide), rfl⟩
theorem witness_CounterWriters :
    (run (.clkAdvance 1) State.reset).clk ≠ State.reset.clk ∧
      (run .domainReset (at_ 5 chip0)).clk ≠ (at_ 5 chip0).clk ∧
      (run .guardTick (late 1000000001)).clk ≠ (late 1000000001).clk := by decide
/-- The two clauses meet at a sum of `NEVER`. -/
theorem witness_ClkAdvance :
    (late 0xFFFFFFFD).clk.toNat + (1 : BitVec 32).toNat < neverNat ∧
      neverNat ≤ (late 0xFFFFFFFD).clk.toNat + (2 : BitVec 32).toNat ∧ (late 0xFFFFFFFD).fault = none := by decide
/-- The two clauses meet at the high-water mark. -/
theorem witness_GuardTick :
    (late 1000000000).clk.toNat ≤ (late 1000000000).cfg.highWater ∧
      (late 1000000001).cfg.highWater < (late 1000000001).clk.toNat := by decide
theorem witness_Rebase :
    (match rebaseAll 3 (at_ 5 free9) with | .ok s => s.clk.toNat | .error _ => 0) = 2 ∧
      (at_ 5 free9).clk < ((at_ 5 free9).chip 0).chanA.u := by decide
/-- Clauses at slots 4, 2 and 3, targets `NEVER` and the one below it. -/
theorem witness_AlarmSet :
    State.reset.cfg.nAlarms ≤ 4 ∧ 2 < 3 * State.reset.cfg.nchip ∧ 3 < State.reset.cfg.nAlarms ∧
      3 * State.reset.cfg.nchip ≤ 3 ∧ (0xFFFFFFFE : Cycle) ≠ never := by decide
theorem witness_AlarmRead :
    3 < State.reset.cfg.nAlarms ∧ (State.reset.alarm 3).armed = false ∧ State.reset.cfg.nAlarms ≤ 4 := by decide
/-- A target equal to `clk` is due, one cycle later is not. -/
theorem witness_DispatchOk :
    (match dispatch (armed3 12 12) with | .ok (_, n) => n | .error _ => 0) = 1 ∧
      ((armed3 12 12).alarm 3).due (armed3 12 12).clk = true ∧
      ((armed3 12 13).alarm 3).due (armed3 12 13).clk = false ∧
      (match dispatch (armed3 12 13) with | .ok (_, n) => n | .error _ => 1) = 0 := by decide
theorem witness_DispatchFrozen :
    (match dispatch { at_ 100000 { chip0 with todStopped := true } with port := [] } with | .ok (s, n) => n + (s.chip 0).tod.tenths.toNat | .error _ => 9) = 1 := by decide
theorem witness_NoneDue : State.NoneDue State.reset := by decide
/-- The clauses meet at `clk`. -/
theorem witness_Irq :
    1 < State.reset.cfg.nSources ∧ State.reset.cfg.nchip ≤ 1 ∧ (35 : Cycle) ≤ (at_ 35 free9).clk ∧
      (at_ 35 free9).clk < 36 := by decide
theorem witness_access : 0 < State.reset.cfg.nchip := by decide
theorem witness_ready_read_wins :
    State.Ready (at_ 5 (pulsed 0x61 0x21 1 1)) := ⟨inv_of_check (by decide), rfl, by decide⟩
theorem witness_ready_set_wins :
    State.Ready { at_ 5 { pulsed 0x61 0x21 1 1 with srBits := 1 } with cfg := { Config.reference with readWins := [false] } } := ⟨inv_of_check (by decide), rfl, by decide⟩
theorem witness_ReadWins :
    exec (.chipReadIcr 0) (at_ 5 (pulsed 0x61 0x21 1 1)) = .next (run (.chipReadIcr 0) (at_ 5 (pulsed 0x61 0x21 1 1))) ∧ (State.cfg (at_ 5 (pulsed 0x61 0x21 1 1))).readWins.getD 0 false = true ∧ ((run (.chipReadIcr 0) (at_ 5 (pulsed 0x61 0x21 1 1))).chip 0).pulseUnderflows .A = true := ⟨rfl, by decide, by decide⟩
theorem witness_SetWins :
    exec (.chipReadIcr 0) { at_ 5 { pulsed 0x61 0x21 1 1 with srBits := 1 } with cfg := { Config.reference with readWins := [false] } } = .next (run (.chipReadIcr 0) { at_ 5 { pulsed 0x61 0x21 1 1 with srBits := 1 } with cfg := { Config.reference with readWins := [false] } }) ∧ (State.cfg { at_ 5 { pulsed 0x61 0x21 1 1 with srBits := 1 } with cfg := { Config.reference with readWins := [false] } }).readWins.getD 0 false = false ∧ ((run (.chipReadIcr 0) { at_ 5 { pulsed 0x61 0x21 1 1 with srBits := 1 } with cfg := { Config.reference with readWins := [false] } }).chip 0).pulseCompletes none = true := ⟨rfl, by decide, by decide⟩
/-- Nothing is due, so the dispatch leaves `rc` at 20: the clauses at cycles 51, 19, 20 and 50. -/
theorem witness_ChipUpdate :
    (at_ 50 { chip0 with rc := 20 }).clk < 51 ∧ (19 : Cycle) < ((at_ 50 { chip0 with rc := 20 }).chip 0).rc ∧
      ((at_ 50 { chip0 with rc := 20 }).chip 0).rc ≤ 20 ∧ (50 : Cycle) ≤ (at_ 50 { chip0 with rc := 20 }).clk ∧
      (at_ 50 { chip0 with rc := 20 }).NoneDue := by decide
/-- The cases meet at counters 1 and 2, and at the half-bit that completes. -/
theorem witness_ExtPulse :
    (pulsed 0x21 0x00 2 0).pulseCounts .A = true ∧ (pulsed 0x21 0x00 2 0).pulseUnderflows .A = false ∧
      (pulsed 0x21 0x00 1 0).pulseUnderflows .A = true ∧ (pulsed 0x21 0x00 0 0).pulseUnderflows .A = true ∧
      (pulsed 0x00 0x21 0 2).pulseCounts .B = true ∧ (pulsed 0x00 0x21 0 2).pulseUnderflows .B = false ∧
      (pulsed 0x00 0x21 0 1).pulseUnderflows .B = true ∧ chip0.pulseCounts .A = false ∧
      chip0.pulseCounts .B = false ∧ (pulsed 0x21 0x41 1 1).pulseUnderflows .B = true ∧
      (pulsed 0x21 0x41 2 1).pulseCounts .B = false ∧
      ({ pulsed 0x61 0x00 1 0 with srBits := 1 } : Chip).pulseCompletes none = true ∧
      ({ pulsed 0x61 0x00 1 0 with srBits := 2 } : Chip).pulseCompletes none = false ∧
      ({ pulsed 0x61 0x00 1 0 with srBits := 4 } : Chip).pulseCompletes (some 3) = true := by decide
theorem witness_UpdateTo :
    0 < (at_ 35 free9).chips.length ∧
      (match updateTo 0 35 (at_ 35 free9) with | .ok s => decide ((s.chip 0).chanState .A = .running) | .error _ => false) = true := by decide
theorem witness_FastForward :
    (at_ 35 free9).Inv ∧ ((at_ 35 free9).chip 0).rc ≤ 12 ∧
      (12 : Cycle) ≤ 35 := ⟨inv_of_check (by decide), by decide, by decide⟩
theorem witness_FastForward_ok :
    (match updateTo 0 35 (at_ 35 free9) with | .ok s => (s.chip 0).chanA.u.toNat | .error _ => 0) = 40 := by decide
/-- A counter of 2: one event does not underflow, two do. -/
theorem witness_ClosedForm :
    (pulsed 0x00 0x21 0 2).chanState .B = .runningExt ∧ (pulsed 0x00 0x29 0 2).crb.getLsbD 3 = true ∧
      (pulsed 0x00 0x41 0 2).chanState .B = .runningCascade ∧ (pulsed 0x00 0x41 0 2).lastRead = none ∧
      5 + 3 * 1 < neverNat ∧ 1 < max (pulsed 0x00 0x21 0 2).chanB.cnt.toNat 1 ∧
      ¬2 < max (pulsed 0x00 0x21 0 2).chanB.cnt.toNat 1 := by decide
theorem witness_TodValid :
    Tod.Valid ⟨9, 0x59, 0x59, 0x91⟩ ∧ Tod.Valid ⟨0, 0, 0, 0x12⟩ ∧ Tod.Valid ⟨0, 0, 0, 0⟩ ∧
      Tod.Masked ⟨0x0F, 0x7F, 0x7F, 0x9F⟩ := by decide
theorem witness_TodWrites :
    ((at_ 5 { chip0 with crb := 0x80 }).chip 0).crb.getLsbD 7 = true ∧
      (State.reset.chip 0).crb.getLsbD 7 = false := by decide
theorem witness_SnapSave :
    State.reset.cfg.hasSnapshot = true ∧ chip0.lastRead = none ∧
      ((run (.snapRestore 0) { at_ 35 chip0 with payloadIn := payload }).chip 0).lastRead = some 33 := by decide
theorem witness_SnapMalformed :
    (payload.take 38).length ≠ 39 ∧ byteAt (2 :: payload.tail) 0 ≠ 1 ∧ byteAt (1 :: 1 :: payload.drop 2) 1 ≠ 0 ∧
      neverNat ≤ 35 + max (p32 (payload.take 35 ++ [0xFF, 0xFF, 0xFF, 0xFF]) 35).toNat 1 := by decide
theorem witness_SnapLoads :
    payload.length = 39 ∧ byteAt payload 0 = 1 ∧ byteAt payload 1 = 0 ∧
      35 + max (p32 payload 35).toNat 1 < neverNat := by decide
theorem witness_RoundTrip :
    exec (.snapSave 0) (at_ 35 free9) = .next (run (.snapSave 0) (at_ 35 free9)) ∧
      ((run (.snapSave 0) (at_ 35 free9)).chip 0).chanState .A = .running ∧
      ((run (.snapSave 0) (at_ 35 free9)).chip 0).chanA.u.toNat = 35 + max ((run (.snapSave 0) (at_ 35 free9)).chip 0).chanA.cnt.toNat 1 ∧ ((run (.snapSave 0) (at_ 35 free9)).chip 0).chanState .B ≠ .running ∧ ((run (.snapSave 0) (at_ 35 free9)).chip 0).lastRead = none := ⟨rfl, by decide, by decide, by decide, by decide⟩
theorem witness_Isolated :
    Instr.chipOperand (.chipWriteCra 0 0x01) = some 0 ∧ State.reset.NoneDue ∧
      exec (.chipWriteCra 0 0x01) State.reset = .next (run (.chipWriteCra 0 0x01) State.reset) := ⟨rfl, by decide, rfl⟩
/-- The clauses meet at the cycle of the underflow, 10; with the interrupt enabled and its line low the stamp is that cycle. -/
theorem witness_Reconcile :
    State.Inv (at_ 35 free9) ∧ 0 < (State.cfg (at_ 35 free9)).nchip ∧ ((State.chip (at_ 35 free9) 0).rc ≤ 9 ∧
      (State.chip (at_ 35 free9) 0).chanState .A = .running ∧ 9 < (State.chip (at_ 35 free9) 0).chanA.u ∧
      (State.chip (at_ 35 free9) 0).chanA.u ≤ 10 ∧ (State.chip (at_ 35 free9) 0).chanState .B ≠ .running) ∧
      35 + 65538 < neverNat ∧ (State.chip (at_ 35 free9) 0).mask = 0x01 ∧
      State.level (at_ 35 free9) .maskable = false := ⟨inv_of_check (by decide), by decide, by decide, by decide, by decide, by decide⟩
theorem witness_Reconcile_both :
    State.Inv (at_ 35 { chip0 with chanA := ⟨9, 9, 10, false⟩, cra := 0x09, chanB := ⟨4, 4, 5, false⟩, crb := 0x01, mask := 0x02 }) ∧ (State.chip (at_ 35 { chip0 with chanA := ⟨9, 9, 10, false⟩, cra := 0x09, chanB := ⟨4, 4, 5, false⟩, crb := 0x01, mask := 0x02 }) 0).cra.getLsbD 3 = true ∧ (State.chip (at_ 35 { chip0 with chanA := ⟨9, 9, 10, false⟩, cra := 0x09, chanB := ⟨4, 4, 5, false⟩, crb := 0x01, mask := 0x02 }) 0).chanState .B = .running ∧ (State.chip (at_ 35 { chip0 with chanA := ⟨9, 9, 10, false⟩, cra := 0x09, chanB := ⟨4, 4, 5, false⟩, crb := 0x01, mask := 0x02 }) 0).chanB.u ≤ 5 := ⟨inv_of_check (by decide), by decide, by decide, by decide⟩
theorem witness_ReconcileDispatch :
    (∃ t, DispatchedAs (at_ 35 free9) t) ∧ (∃ t, DispatchedAs (at_ 9 free9) t) ∧
      (State.alarm (at_ 35 free9) 0).due 35 = true ∧
      ((at_ 9 free9).alarm 0).due 9 = false := ⟨⟨_, _, rfl⟩, ⟨_, _, rfl⟩, by decide, by decide⟩
theorem witness_ready_before_underflow : State.Ready (at_ 9 free9) := ⟨inv_of_check (by decide), rfl, by decide⟩
/-- A countdown of 3: at cycle 29 one half-bit is left, at cycle 30 the transfer is complete. -/
theorem witness_ShiftClock :
    State.Inv (at_ 35 { free9 with cra := 0x41, mask := 0x08, srBits := 3 }) ∧
      (State.chip (at_ 35 { free9 with cra := 0x41, mask := 0x08, srBits := 3 }) 0).rc ≤ 29 ∧
      (State.chip (at_ 35 { free9 with cra := 0x41, mask := 0x08, srBits := 3 }) 0).cra.getLsbD 6 = true ∧
      3 - (1 + (29 - 10) / 10) = 1 ∧ 3 - (1 + (30 - 10) / 10) = 0 ∧
      State.level (at_ 35 { free9 with cra := 0x41, mask := 0x08, srBits := 3 }) .maskable = false ∧
      (State.cfg (at_ 35 { free9 with cra := 0x41, mask := 0x08, srBits := 3 })).srEarly = none := ⟨inv_of_check (by decide), by decide, by decide, by decide, by decide, by decide, by decide⟩
/-- With a threshold of 1 the flag comes with the second half-bit. -/
theorem witness_ShiftClock_early :
    State.Inv { at_ 35 { free9 with cra := 0x41, mask := 0x08, srBits := 3 } with cfg := { Config.reference with srEarly := some 1 } } ∧ (State.cfg { at_ 35 { free9 with cra := 0x41, mask := 0x08, srBits := 3 } with cfg := { Config.reference with srEarly := some 1 } }).srEarly.getD 0 < 3 ∧ ¬3 - (1 + (19 - 10) / 10) ≤ 1 ∧ 3 - (1 + (20 - 10) / 10) ≤ 1 := ⟨inv_of_check (by decide), by decide, by decide, by decide⟩
/-- A counter of 2: no event before cycle 10, one up to 19, the underflow at 20. -/
theorem witness_Cascade :
    State.Inv (at_ 35 { free9 with mask := 0x02, chanB := ⟨3, 2, never, false⟩, crb := 0x41 }) ∧
      (State.chip (at_ 35 { free9 with mask := 0x02, chanB := ⟨3, 2, never, false⟩, crb := 0x41 }) 0).chanState .B = .runningCascade ∧ (State.chip (at_ 35 { free9 with mask := 0x02, chanB := ⟨3, 2, never, false⟩, crb := 0x41 }) 0).chanA.u ≤ 10 ∧ ¬(State.chip (at_ 35 { free9 with mask := 0x02, chanB := ⟨3, 2, never, false⟩, crb := 0x41 }) 0).chanA.u ≤ 9 ∧ 1 + (19 - 10) / 10 < max (State.chip (at_ 35 { free9 with mask := 0x02, chanB := ⟨3, 2, never, false⟩, crb := 0x41 }) 0).chanB.cnt.toNat 1 ∧ max (State.chip (at_ 35 { free9 with mask := 0x02, chanB := ⟨3, 2, never, false⟩, crb := 0x41 }) 0).chanB.cnt.toNat 1 ≤ 1 + (20 - 10) / 10 := ⟨inv_of_check (by decide), by decide, by decide, by decide, by decide, by decide⟩
theorem witness_Tick :
    0 < (at_ 100000 chip0).chips.length ∧ ((100000 : Cycle)).toNat + (at_ 100000 chip0).cfg.todPeriod < neverNat ∧
      todInc chip0.tod ≠ chip0.todAlarm ∧ todInc chip0.tod = (⟨1, 0, 0, 0⟩ : Tod) := by decide
theorem witness_ready_tick :
    State.Ready (at_ 100000 { chip0 with todAlarm := ⟨1, 0, 0, 0⟩ }) := ⟨inv_of_check (by decide), rfl, by decide⟩
theorem witness_ready_ticks :
    State.Ready (at_ 300000 { chip0 with rc := 250000 }) := ⟨inv_of_check (by decide), rfl, by decide⟩
theorem witness_TickDispatch :
    (∃ t, DispatchedAs (at_ 100000 { chip0 with todAlarm := ⟨1, 0, 0, 0⟩ }) t) ∧
      (∃ t, DispatchedAs (at_ 99999 chip0) t) ∧ ((at_ 100000 chip0).alarm 2).due 100000 = true ∧
      ((at_ 99999 chip0).alarm 2).due 99999 = false := ⟨⟨_, _, rfl⟩, ⟨_, _, rfl⟩, by decide, by decide⟩
/-- A late tick owes one callback for each period that has come. -/
theorem witness_Callbacks :
    (at_ 35 free9).callbacksDue = 1 ∧ (armed3 12 12).callbacksDue = 1 ∧ (armed3 12 13).callbacksDue = 0 ∧
      (at_ 300000 { chip0 with rc := 250000 }).callbacksDue = 3 ∧
      (at_ 299999 { chip0 with rc := 250000 }).callbacksDue = 2 := by decide
/-- A cycle operand at the new origin can be shifted. -/
theorem witness_Transparent :
    State.Inv (at_ 5 { free9 with rc := 5 }) ∧ (5 ≤ (State.clk (at_ 5 { free9 with rc := 5 })).toNat ∧
      5 ≤ (State.chip (at_ 5 { free9 with rc := 5 }) 0).rc.toNat) ∧
      (∃ t, rebaseAll 5 (at_ 5 { free9 with rc := 5 }) = .ok t) ∧ (Instr.CanShift 5 (.irqQuery .maskable 5) ∧
      Instr.CanShift 5 (.clkAdvance 5) ∧ Instr.CanShift 5 (.chipReadIcr 0)) ∧
      Runs [⟨.irqQuery .maskable 5, []⟩, ⟨.clkAdvance 5, []⟩, ⟨.chipReadIcr 0, []⟩] (at_ 5 { free9 with rc := 5 }) [.value 0, .value 0, .value 0x81] (run (.chipReadIcr 0) (run (.clkAdvance 5) (run (.irqQuery .maskable 5) (at_ 5 { free9 with rc := 5 })))) ∧ ∀ v : BitVec 32, Operation.Fits Config.reference ⟨.clkRead, []⟩ (.value v) := ⟨inv_of_check (by decide), by decide, ⟨_, rfl⟩, ⟨Nat.le_refl 5, trivial, trivial⟩, ⟨_, _, rfl, rfl, _, _, rfl, rfl, _, _, rfl, rfl, rfl, rfl⟩, fun _ => ⟨(by decide : (0 : Byte) ≠ 3), fun h => absurd h (by decide : (0 : Byte) ≠ 5)⟩⟩
/-- At 120 cycles beyond the new origin no dropped `last_read` could be saved. -/
theorem witness_Transparent_save :
    State.Inv (at_ 125 { chip0 with rc := 125 }) ∧ (State.cfg (at_ 125 { chip0 with rc := 125 })).snapRdiMax = 120 ∧
      5 + (State.cfg (at_ 125 { chip0 with rc := 125 })).snapRdiMax ≤ (State.clk (at_ 125 { chip0 with rc := 125 })).toNat ∧ 5 ≤ (State.chip (at_ 125 { chip0 with rc := 125 }) 0).rc.toNat ∧ (run (.snapSave 0) (at_ 125 { chip0 with rc := 125 })).status = 0 := ⟨inv_of_check (by decide), by decide, by decide, by decide, by decide⟩

end Sys2Proof.Tests
end

section
/-! One step at the command port (00_scope.md R11, 30_encoding.md R80, R83): what `step` does, by what the port holds. -/

namespace Sys2Proof.Machine

/-- With no operation presented a step idles (notes/assumptions/5.md). -/
theorem step_of_port_nil {s : State} (hport : s.port = []) : step s = .next s := by
  have hfetch : fetch s = none := fetch_eq_none.mpr hport
  simp only [step, hfetch]

/-- A presented word that decodes leaves the port, and its operation runs with the payload presented beside it. -/
theorem step_of_decode_ok {s : State} {p : Presented} {rest : List Presented} {i : Instr}
    (hport : s.port = p :: rest) (hdecode : decode p.word = .ok i) :
    step s = exec i { s with port := rest, payloadIn := p.payload } := by
  have hfetch : fetch s = some (p.word, { s with port := rest, payloadIn := p.payload }) :=
    fetch_eq_some.mpr ⟨p, rest, hport, rfl, rfl⟩
  simp only [step, hfetch, hdecode]

/-- Settles O4: the two branches of `step` on what `fetch` takes from the port. -/
theorem stepRunsPresentedOperation : Obligations.StepRunsPresentedOperation := by
  unfold Obligations.StepRunsPresentedOperation
  constructor
  · intro s p rest i hport hdecode
    exact step_of_decode_ok hport hdecode
  · intro s hport
    exact step_of_port_nil hport

end Sys2Proof.Machine
end

section
/-! The free values drawn so far (notes/assumptions/3.md): no shared operation but a reset of a chip draws one. With
`OnlyChip`, which says nothing of `draws`, this is the whole frame of an operation's work on one chip. -/

namespace Sys2Proof.Machine

@[simp] theorem alarmUnset_draws (a : Nat) (s : State) : (alarmUnset a s).draws = s.draws := rfl

theorem alarmSet_draws {a t : Nat} {s s' : State} (h : alarmSet a t s = .ok s') : s'.draws = s.draws := by
  obtain ⟨-, rfl⟩ := alarmSet_eq_ok.mp h
  rfl

@[simp] theorem updateLine_draws (k : Nat) (e : Cycle) (s : State) : (updateLine k e s).draws = s.draws :=
  aggSet_draws k _ e s

@[simp] theorem setFlag_draws (k : Nat) (bit : Byte) (e : Cycle) (s : State) : (setFlag k bit e s).draws = s.draws := by
  unfold setFlag
  split <;> simp

/-! ### Count events and underflows -/

@[simp] theorem shiftEvents_draws (k n e0 P : Nat) (s : State) : (shiftEvents k n e0 P s).draws = s.draws := by
  unfold shiftEvents
  dsimp only
  split
  · rfl
  · split <;> split <;> simp

@[simp] theorem stopOneShot_draws (k : Nat) (x : Channel) (s : State) : (stopOneShot k x s).draws = s.draws := by
  unfold stopOneShot
  split <;> simp

theorem countOne_draws {k : Nat} {x : Channel} {u : State → State} (hu : ∀ s, (u s).draws = s.draws) (s : State) :
    (countOne u k x s).draws = s.draws := by
  unfold countOne
  dsimp only
  split <;> simp [hu]

theorem countLoop_draws {k : Nat} {x : Channel} {mode : ChanState} {P : Nat} {u : Nat → State → State}
    (hu : ∀ e s, (u e s).draws = s.draws) (n e : Nat) (s : State) :
    (countLoop u k x mode P n e s).draws = s.draws := by
  induction n generalizing e s with
  | zero => rfl
  | succ n ih =>
    unfold countLoop
    split
    · rfl
    · exact (ih _ _).trans (countOne_draws (hu e) s)

@[simp] theorem underflowEffectsB_draws (k e0 : Nat) (s : State) : (underflowEffectsB k e0 s).draws = s.draws :=
  setFlag_draws k _ _ s

@[simp] theorem clockShift_draws (k n e0 P : Nat) (s : State) : (clockShift k n e0 P s).draws = s.draws := by
  unfold clockShift
  split <;> simp

@[simp] theorem cascade_draws (k n e0 P : Nat) (s : State) : (cascade k n e0 P s).draws = s.draws := by
  unfold cascade
  split
  · exact countLoop_draws (underflowEffectsB_draws k) n e0 s
  · rfl

@[simp] theorem underflowEffects_draws (k : Nat) (x : Channel) (n e0 P : Nat) (s : State) :
    (underflowEffects k x n e0 P s).draws = s.draws := by
  cases x with
  | A => simp [underflowEffects, underflowEffectsA]
  | B => exact underflowEffectsB_draws k e0 s

@[simp] theorem countEvents_draws (k : Nat) (x : Channel) (mode : ChanState) (n e0 P : Nat) (s : State) :
    (countEvents k x mode n e0 P s).draws = s.draws :=
  countLoop_draws (fun e s => underflowEffects_draws k x 1 e 1 s) n e0 s

/-! ### Reconciliation, ticks and callbacks -/

theorem chanCatchUp_draws {k : Nat} {x : Channel} {c : Cycle} {s s' : State} (h : chanCatchUp k x c s = .ok s') :
    s'.draws = s.draws := by
  unfold chanCatchUp at h
  dsimp only at h
  split at h
  · split at h
    · cases h
      simp
    · obtain ⟨u, -, h⟩ := bind_eq_ok.mp h
      obtain ⟨s₁, h₁, h⟩ := bind_eq_ok.mp h
      cases h
      calc (underflowEffects k x _ _ _ s₁).draws = s₁.draws := underflowEffects_draws k x _ _ _ s₁
        _ = s.draws := (alarmSet_draws h₁).trans (State.setChan_draws s k x _)
  · cases h
    rfl

theorem updateTo_draws {k : Nat} {c : Cycle} {s s' : State} (h : updateTo k c s = .ok s') : s'.draws = s.draws := by
  obtain ⟨-, s₁, s₂, h₁, h₂, rfl⟩ := updateTo_eq_ok.mp h
  exact (chanCatchUp_draws h₂).trans (chanCatchUp_draws h₁)

@[simp] theorem todAdvance_draws (k : Nat) (T : Cycle) (s : State) : (todAdvance k T s).draws = s.draws := by
  unfold todAdvance
  dsimp only
  split
  · rfl
  · split <;> simp

theorem todTick_draws {k : Nat} {T : Cycle} {s s' : State} (h : todTick k T s = .ok s') : s'.draws = s.draws :=
  (alarmSet_draws h).trans (todAdvance_draws k T s)

theorem fire_draws {a overrun : Nat} {s s' : State} (h : fire a overrun s = .ok s') : s'.draws = s.draws := by
  unfold fire at h
  split at h
  · split at h
    · exact todTick_draws h
    · exact updateTo_draws h
  · cases h
    rfl

/-! ### Register writes and the restore -/

theorem controlEffect_draws {k : Nat} {x : Channel} {v : Byte} {s s' : State} (h : controlEffect k x v s = .ok s') :
    s'.draws = s.draws := by
  unfold controlEffect at h
  split at h
  · obtain ⟨u, -, h⟩ := bind_eq_ok.mp h
    exact (alarmSet_draws h).trans (State.setChan_draws _ k x _)
  · cases h
    rfl
  · split at h
    · obtain ⟨u, -, h⟩ := bind_eq_ok.mp h
      exact (alarmSet_draws h).trans (State.setChan_draws _ k x _)
    · cases h
      rfl
  · cases h
    split <;> rfl

theorem writeControl_draws {k : Nat} {x : Channel} {v : Byte} {s s' : State} (h : writeControl k x v s = .ok s') :
    s'.draws = s.draws := by
  obtain ⟨s₁, h₁, h⟩ := bind_eq_ok.mp h
  cases h
  exact (State.setCtl_draws s₁ k x _).trans (controlEffect_draws h₁)

theorem writeLatchByte_draws {k : Nat} {x : Channel} {half : Half} {v : Byte} {s s' : State}
    (h : writeLatchByte k x half v s = .ok s') : s'.draws = s.draws := by
  unfold writeLatchByte at h
  dsimp only at h
  split at h
  · obtain ⟨u, -, h⟩ := bind_eq_ok.mp h
    exact (alarmSet_draws h).trans (State.setChan_draws _ k x _)
  · cases h
    rfl

theorem rearmChannel_draws {k : Nat} {x : Channel} {s s' : State} (h : rearmChannel k x s = .ok s') :
    s'.draws = s.draws := by
  unfold rearmChannel at h
  dsimp only at h
  split at h
  · obtain ⟨u, -, h⟩ := bind_eq_ok.mp h
    exact (alarmSet_draws h).trans (State.setChan_draws _ k x _)
  · cases h
    rfl

theorem restoreFrom_draws {k : Nat} {p : List Byte} {s s' : State} (h : restoreFrom k p s = .ok s') :
    s'.draws = s.draws := by
  obtain ⟨s₁, h₁, h⟩ := bind_eq_ok.mp h
  obtain ⟨s₂, h₂, h⟩ := bind_eq_ok.mp h
  obtain ⟨s₃, h₃, h⟩ := bind_eq_ok.mp h
  cases h
  calc (updateLine k _ s₃).draws = s₃.draws := updateLine_draws k _ s₃
    _ = s₂.draws := alarmSet_draws h₃
    _ = s₁.draws := rearmChannel_draws h₂
    _ = s.draws := (rearmChannel_draws h₁).trans rfl

end Sys2Proof.Machine
end

section
/-! What an operation leaves of the machine's wiring (10_state.md R49, 00_scope.md R11, R17): the relation
`KeepsWiring` from the shared operations up to `exec` and `step`. -/

namespace Sys2Proof.Machine

/-- From `s` to `s'` the parameters and the command port are left alone, and neither the output events nor the draws are
taken back (10_state.md R49, 00_scope.md R17; notes/assumptions/3.md). -/
structure KeepsWiring (s s' : State) : Prop where
  cfg : s'.cfg = s.cfg
  port : s'.port = s.port
  events : s.events <+: s'.events
  draws : s.draws ≤ s'.draws

/-- Every answer of an operation's body keeps the wiring. -/
def BodyKeepsWiring (body : State → Result) : Prop := ∀ s s' r, body s = .ok (s', r) → KeepsWiring s s'

/-! ### The shared operations -/

/-- The wiring is kept where its fields are what they were. -/
theorem KeepsWiring.of_eq {s s' : State} (hcfg : s'.cfg = s.cfg) (hport : s'.port = s.port)
    (hevents : s'.events = s.events) (hdraws : s'.draws = s.draws) : KeepsWiring s s' :=
  ⟨hcfg, hport, ⟨[], by rw [hevents, List.append_nil]⟩, hdraws.ge⟩

theorem KeepsWiring.refl (s : State) : KeepsWiring s s := KeepsWiring.of_eq rfl rfl rfl rfl

theorem KeepsWiring.trans {s t u : State} (h : KeepsWiring s t) (g : KeepsWiring t u) : KeepsWiring s u where
  cfg := g.cfg.trans h.cfg
  port := g.port.trans h.port
  events := h.events.trans g.events
  draws := h.draws.trans g.draws

/-- Work on one chip keeps the wiring, provided it takes back no draw, of which `OnlyChip` says nothing. -/
theorem OnlyChip.keepsWiring {k : Nat} {s s' : State} (h : OnlyChip k s s') (hdraws : s.draws ≤ s'.draws) :
    KeepsWiring s s' :=
  ⟨h.cfg, h.port, by rw [h.events], hdraws⟩

theorem KeepsWiring.answer (s : State) (r : Reply) : KeepsWiring s (s.answer r) :=
  KeepsWiring.of_eq rfl rfl rfl rfl

theorem KeepsWiring.takeFault (f : FaultCode) (s : State) : KeepsWiring s (takeFault f s) :=
  KeepsWiring.of_eq rfl rfl rfl rfl

theorem KeepsWiring.setAlarm (a : Nat) (al : Alarm) (s : State) : KeepsWiring s (s.setAlarm a al) :=
  KeepsWiring.of_eq rfl rfl rfl rfl

/-- An event is emitted after those before it (00_scope.md R17). -/
theorem KeepsWiring.emit (e : Event) (s : State) : KeepsWiring s (emit e s) :=
  ⟨rfl, rfl, ⟨[e], rfl⟩, Nat.le_refl _⟩

theorem KeepsWiring.setChip (k : Nat) (c : Chip) (s : State) : KeepsWiring s (s.setChip k c) :=
  (OnlyChip.setChip k c s).keepsWiring (Nat.le_refl _)

theorem KeepsWiring.aggSet (n : Nat) (b : Bool) (e : Cycle) (s : State) : KeepsWiring s (aggSet n b e s) :=
  (OnlyChip.aggSet n b e s).keepsWiring (aggSet_draws n b e s).ge

theorem KeepsWiring.alarmSet {a t : Nat} {s s' : State} (h : alarmSet a t s = .ok s') : KeepsWiring s s' := by
  obtain ⟨-, rfl⟩ := alarmSet_eq_ok.mp h
  exact KeepsWiring.setAlarm a _ s

theorem KeepsWiring.updateTo {k : Nat} {c : Cycle} {s s' : State} (h : updateTo k c s = .ok s') : KeepsWiring s s' :=
  (OnlyChip.updateTo h).keepsWiring (updateTo_draws h).ge

theorem KeepsWiring.chipReset {k : Nat} {c : Cycle} {s s' : State} (h : chipReset k c s = .ok s') :
    KeepsWiring s s' := by
  obtain ⟨hframe, hdraws⟩ := chipReset_onlyChip h
  exact hframe.keepsWiring (by omega)

/-- `DOMAIN_RESET` draws latches for every chip and clears neither the port nor the events
(notes/assumptions/3.md, 4.md, 6.md). -/
theorem KeepsWiring.domainReset {s s' : State} (h : domainReset s = .ok s') : KeepsWiring s s' := by
  unfold Sys2Proof.Machine.domainReset at h
  refine forUpTo_keeps (P := KeepsWiring s) (fun _ _ _ hs h => hs.trans (KeepsWiring.chipReset h)) ?_ h
  exact KeepsWiring.of_eq rfl rfl rfl rfl

/-- A callback works on its chip, or emits the event of its external slot (41_alarm_scheduler.md R129). -/
theorem KeepsWiring.fire {a overrun : Nat} {s s' : State} (h : fire a overrun s = .ok s') : KeepsWiring s s' := by
  by_cases ha : a < 3 * s.cfg.nchip
  · exact (fire_onlyChip ha h).keepsWiring (fire_draws h).ge
  · rw [fire_external ha] at h
    cases h
    exact (KeepsWiring.setAlarm a _ s).trans (KeepsWiring.emit _ _)

theorem KeepsWiring.dispatch {s s' : State} {n : Nat} (h : dispatch s = .ok (s', n)) : KeepsWiring s s' :=
  (dispatchLoop_keeps (P := KeepsWiring s) (fun _ _ _ hs _ h => hs.trans (KeepsWiring.fire h)) (KeepsWiring.refl s) h).1

/-- The guard's rebase shifts cycle values and announces itself by an event (40_counter_guard.md R103, R106). -/
theorem KeepsWiring.guardRebase {s s' : State} {r : Reply} (h : guardRebase s = .ok (s', r)) : KeepsWiring s s' := by
  obtain ⟨s₁, h₁, h⟩ := bind_eq_ok.mp h
  obtain ⟨s₂, h₂, h⟩ := bind_eq_ok.mp h
  cases h
  have hreconcile : KeepsWiring s s₁ :=
    forUpTo_keeps (P := KeepsWiring s) (fun _ _ _ hs h => hs.trans (KeepsWiring.updateTo h)) (KeepsWiring.refl s) h₁
  have hrebase : KeepsWiring s₁ s₂ := by
    obtain ⟨-, rfl⟩ := rebaseAll_eq_ok.mp h₂
    exact KeepsWiring.of_eq rfl rfl rfl rfl
  exact (hreconcile.trans hrebase).trans (KeepsWiring.emit _ s₂)

/-! ### The bodies of operations -/

/-- A body that computes its answer and changes nothing. -/
theorem bodyKeepsWiring_reply (reply : State → Reply) : BodyKeepsWiring fun s => .ok (s, reply s) := by
  intro s s' r h
  cases h
  exact KeepsWiring.refl s

theorem bodyKeepsWiring_afterDispatch {body : State → Result} (hbody : BodyKeepsWiring body) :
    BodyKeepsWiring fun s => afterDispatch s body := by
  intro s s' r h
  obtain ⟨s₁, n, h₁, h₂⟩ := afterDispatch_eq_ok.mp h
  exact (KeepsWiring.dispatch h₁).trans (hbody s₁ s' r h₂)

theorem bodyKeepsWiring_onChip (k : Nat) {body : State → Result} (hbody : BodyKeepsWiring body) :
    BodyKeepsWiring fun s => onChip k s body := by
  intro s s' r h
  obtain ⟨-, s₁, n, h₁, h₂⟩ := onChip_eq_ok.mp h
  exact (KeepsWiring.dispatch h₁).trans (hbody s₁ s' r h₂)

theorem bodyKeepsWiring_accessChip (k : Nat) {body : State → Result} (hbody : BodyKeepsWiring body) :
    BodyKeepsWiring fun s => accessChip k s body := by
  intro s s' r h
  obtain ⟨-, s₁, n, h₁, s₂, h₂, h₃⟩ := accessChip_eq_ok.mp h
  exact ((KeepsWiring.dispatch h₁).trans (KeepsWiring.updateTo h₂)).trans (hbody s₂ s' r h₃)

theorem bodyKeepsWiring_readChip (k : Nat) (value : State → Byte) : BodyKeepsWiring (readChip k value) :=
  bodyKeepsWiring_accessChip k (bodyKeepsWiring_reply _)

theorem bodyKeepsWiring_writeChip (k : Nat) {effect : State → State} (heffect : ∀ s, KeepsWiring s (effect s)) :
    BodyKeepsWiring (writeChip k effect) := by
  refine bodyKeepsWiring_accessChip k fun s s' r h => ?_
  cases h
  exact heffect s

theorem bodyKeepsWiring_writeChipE (k : Nat) {effect : State → Except FaultCode State}
    (heffect : ∀ s s', effect s = .ok s' → KeepsWiring s s') : BodyKeepsWiring (writeChipE k effect) := by
  refine bodyKeepsWiring_accessChip k fun s s' r h => ?_
  obtain ⟨t, ht, h⟩ := bind_eq_ok.mp h
  cases h
  exact heffect s _ ht

/-- A check that does not change the state, then the rest of the body. -/
theorem bodyKeepsWiring_check {check : State → Except FaultCode Unit} {body : State → Result}
    (hbody : BodyKeepsWiring body) : BodyKeepsWiring fun s => check s >>= fun _ => body s := by
  intro s s' r h
  obtain ⟨-, -, h⟩ := bind_eq_ok.mp h
  exact hbody s s' r h

/-- A change that can fault, with nothing returned. -/
theorem bodyKeepsWiring_effect {effect : State → Except FaultCode State}
    (heffect : ∀ s s', effect s = .ok s' → KeepsWiring s s') :
    BodyKeepsWiring fun s => effect s >>= fun s' => .ok (s', .nothing) := by
  intro s s' r h
  obtain ⟨t, ht, h⟩ := bind_eq_ok.mp h
  cases h
  exact heffect s _ ht

/-! ### The effects of the register writes and of a pulse -/

theorem KeepsWiring.writeLatchByte {k : Nat} {x : Channel} {half : Half} {v : Byte} {s s' : State}
    (h : writeLatchByte k x half v s = .ok s') : KeepsWiring s s' :=
  (OnlyChip.writeLatchByte h).keepsWiring (writeLatchByte_draws h).ge

theorem KeepsWiring.writeControl {k : Nat} {x : Channel} {v : Byte} {s s' : State}
    (h : writeControl k x v s = .ok s') : KeepsWiring s s' :=
  (OnlyChip.writeControl h).keepsWiring (writeControl_draws h).ge

theorem KeepsWiring.restoreFrom {k : Nat} {p : List Byte} {s s' : State} (h : restoreFrom k p s = .ok s') :
    KeepsWiring s s' :=
  (OnlyChip.restoreFrom h).keepsWiring (restoreFrom_draws h).ge

theorem KeepsWiring.todWrite (k : Nat) (i : TodField) (v : Byte) (s : State) : KeepsWiring s (todWrite k i v s) := by
  unfold Sys2Proof.Machine.todWrite
  dsimp only
  split <;> exact KeepsWiring.setChip k _ s

theorem KeepsWiring.updateLine_setChip (k : Nat) (e : Cycle) (c : Chip) (s : State) :
    KeepsWiring s (updateLine k e (s.setChip k c)) :=
  (KeepsWiring.setChip k c s).trans (KeepsWiring.aggSet k _ e _)

theorem KeepsWiring.setPortIn (k : Nat) (p : PortId) (v : Byte) (s : State) : KeepsWiring s (setPortIn k p v s) := by
  cases p <;> exact KeepsWiring.setChip k _ s

theorem KeepsWiring.pulseChannel (k : Nat) (x : Channel) (s : State) : KeepsWiring s (pulseChannel k x s) := by
  unfold Sys2Proof.Machine.pulseChannel
  split
  · exact (OnlyChip.countEvents k x _ _ _ _ s).keepsWiring (countEvents_draws k x _ _ _ _ s).ge
  · exact KeepsWiring.refl s

/-! ### Operations and steps -/

theorem conclude_keepsWiring {s : State} {x : Result} (hx : ∀ s' r, x = .ok (s', r) → KeepsWiring s s') :
    KeepsWiring s (conclude s x) := by
  cases x with
  | ok p => exact (hx p.1 p.2 rfl).trans (KeepsWiring.answer p.1 p.2)
  | error f => exact KeepsWiring.takeFault f s

/-- An operation whose body keeps the wiring keeps it however it ends (60_exceptions.md R287, R288). -/
theorem perform_keepsWiring {body : State → Result} (hbody : BodyKeepsWiring body) {s t : State}
    (h : perform s body = .next t) : KeepsWiring s t := by
  cases hfault : s.fault with
  | some f =>
    rw [perform_of_fault hfault] at h
    cases h
    exact KeepsWiring.answer s _
  | none =>
    rw [perform_of_none hfault] at h
    cases h
    exact conclude_keepsWiring (hbody s)

theorem setSourceOp_keepsWiring (n : Nat) (b : Bool) (e : Cycle) : BodyKeepsWiring (setSourceOp n b e) := by
  refine bodyKeepsWiring_check (bodyKeepsWiring_afterDispatch (bodyKeepsWiring_check ?_))
  intro s s' r h
  cases h
  exact KeepsWiring.aggSet n b e s

theorem readTod_keepsWiring (k : Nat) (i : TodField) : BodyKeepsWiring (readTod k i) := by
  refine bodyKeepsWiring_accessChip k fun s s' r h => ?_
  cases h
  exact KeepsWiring.setChip k _ s

theorem execSnapRestore_keepsWiring {k : Nat} {s t : State} (h : execSnapRestore k s = .next t) : KeepsWiring s t := by
  refine perform_keepsWiring (bodyKeepsWiring_check (bodyKeepsWiring_onChip k ?_)) h
  intro s s' r h
  dsimp only at h
  split at h
  · cases h
    exact KeepsWiring.refl s
  · exact bodyKeepsWiring_effect (fun _ _ h => KeepsWiring.restoreFrom h) s s' r h

theorem execGuardTick_keepsWiring {s t : State} (h : execGuardTick s = .next t) : KeepsWiring s t := by
  refine perform_keepsWiring (bodyKeepsWiring_afterDispatch ?_) h
  intro s s' r h
  dsimp only at h
  split at h
  · exact KeepsWiring.guardRebase h
  · cases h
    exact KeepsWiring.refl s

theorem execClkAdvance_keepsWiring {n : BitVec 32} {s t : State} (h : execClkAdvance n s = .next t) :
    KeepsWiring s t := by
  refine perform_keepsWiring (fun s s' r h => ?_) h
  obtain ⟨c, -, h⟩ := bind_eq_ok.mp h
  cases h
  exact KeepsWiring.of_eq rfl rfl rfl rfl

theorem execClkRead_keepsWiring {s t : State} (h : execClkRead s = .next t) : KeepsWiring s t :=
  perform_keepsWiring (bodyKeepsWiring_reply _) h

theorem execAlarmUnset_keepsWiring {a : Nat} {s t : State} (h : execAlarmUnset a s = .next t) : KeepsWiring s t := by
  refine perform_keepsWiring (bodyKeepsWiring_check fun s s' r h => ?_) h
  cases h
  exact KeepsWiring.setAlarm a _ s

theorem execAlarmNext_keepsWiring {s t : State} (h : execAlarmNext s = .next t) : KeepsWiring s t :=
  perform_keepsWiring (bodyKeepsWiring_reply _) h

theorem execAlarmRead_keepsWiring {a : Nat} {s t : State} (h : execAlarmRead a s = .next t) : KeepsWiring s t :=
  perform_keepsWiring (bodyKeepsWiring_check (bodyKeepsWiring_reply _)) h

theorem execDispatch_keepsWiring {s t : State} (h : execDispatch s = .next t) : KeepsWiring s t := by
  refine perform_keepsWiring (fun s s' r h => ?_) h
  obtain ⟨p, hp, h⟩ := bind_eq_ok.mp h
  cases h
  exact KeepsWiring.dispatch hp

/-- Every operation keeps the wiring: it leaves the parameters and the command port alone and takes back no event. -/
theorem exec_keepsWiring {i : Instr} {s t : State} (h : exec i s = .next t) : KeepsWiring s t := by
  cases i with
  | domainReset =>
    cases h
    refine conclude_keepsWiring fun s' r h => ?_
    cases hreset : domainReset s with
    | ok u => rw [hreset] at h; cases h; exact KeepsWiring.domainReset hreset
    | error f => rw [hreset] at h; cases h
  | chipReset k =>
    exact perform_keepsWiring
      (bodyKeepsWiring_onChip k (bodyKeepsWiring_effect fun _ _ h => KeepsWiring.chipReset h)) h
  | clkAdvance n => exact execClkAdvance_keepsWiring h
  | guardTick => exact execGuardTick_keepsWiring h
  | clkRead => exact execClkRead_keepsWiring h
  | alarmNext => exact execAlarmNext_keepsWiring h
  | alarmRead a => exact execAlarmRead_keepsWiring h
  | alarmSet a target =>
    exact perform_keepsWiring
      (bodyKeepsWiring_check (bodyKeepsWiring_effect fun _ _ h => KeepsWiring.alarmSet h)) h
  | alarmUnset a => exact execAlarmUnset_keepsWiring h
  | dispatch => exact execDispatch_keepsWiring h
  | irqAssert n e | irqDeassert n e => exact perform_keepsWiring (setSourceOp_keepsWiring n _ e) h
  | irqQuery l e =>
    exact perform_keepsWiring
      (bodyKeepsWiring_afterDispatch (bodyKeepsWiring_check (bodyKeepsWiring_reply _))) h
  | irqCpumask m =>
    refine perform_keepsWiring (bodyKeepsWiring_afterDispatch fun s s' r h => ?_) h
    cases h
    exact KeepsWiring.of_eq rfl rfl rfl rfl
  | irqStamp l => exact perform_keepsWiring (bodyKeepsWiring_afterDispatch (bodyKeepsWiring_reply _)) h
  | chipReadPra k | chipReadPrb k | chipReadDdra k | chipReadDdrb k | chipReadTalo k | chipReadTahi k
  | chipReadTblo k | chipReadTbhi k | chipReadSdr k | chipReadCra k | chipReadCrb k | chipPeek k _ | portOut k _ =>
    exact perform_keepsWiring (bodyKeepsWiring_readChip k _) h
  | chipReadTod10 k | chipReadTodsec k | chipReadTodmin k | chipReadTodhr k =>
    exact perform_keepsWiring (readTod_keepsWiring k _) h
  | chipReadIcr k =>
    refine perform_keepsWiring (bodyKeepsWiring_accessChip k fun s s' r h => ?_) h
    cases h
    exact KeepsWiring.updateLine_setChip k _ _ s
  | chipWritePra k v | chipWritePrb k v | chipWriteDdra k v | chipWriteDdrb k v | chipWriteSdr k v =>
    exact perform_keepsWiring (bodyKeepsWiring_writeChip k fun s => KeepsWiring.setChip k _ s) h
  | chipWriteTalo k v | chipWriteTahi k v | chipWriteTblo k v | chipWriteTbhi k v =>
    exact perform_keepsWiring (bodyKeepsWiring_writeChipE k fun _ _ h => KeepsWiring.writeLatchByte h) h
  | chipWriteTod10 k v | chipWriteTodsec k v | chipWriteTodmin k v | chipWriteTodhr k v =>
    exact perform_keepsWiring (bodyKeepsWiring_writeChip k fun s => KeepsWiring.todWrite k _ v s) h
  | chipWriteIcr k v =>
    exact perform_keepsWiring (bodyKeepsWiring_writeChip k fun s => KeepsWiring.updateLine_setChip k _ _ s) h
  | chipWriteCra k v | chipWriteCrb k v =>
    exact perform_keepsWiring (bodyKeepsWiring_writeChipE k fun _ _ h => KeepsWiring.writeControl h) h
  | chipUpdate k cycle =>
    exact perform_keepsWiring (bodyKeepsWiring_onChip k
      (bodyKeepsWiring_check (bodyKeepsWiring_effect fun _ _ h => KeepsWiring.updateTo h))) h
  | portIn k p v =>
    refine perform_keepsWiring (bodyKeepsWiring_onChip k fun s s' r h => ?_) h
    cases h
    exact KeepsWiring.setPortIn k p v s
  | extPulse k =>
    exact perform_keepsWiring (bodyKeepsWiring_writeChip k fun s =>
      (KeepsWiring.pulseChannel k .A s).trans (KeepsWiring.pulseChannel k .B _)) h
  | snapSave k =>
    exact perform_keepsWiring (bodyKeepsWiring_check (bodyKeepsWiring_accessChip k (bodyKeepsWiring_reply _))) h
  | snapRestore k => exact execSnapRestore_keepsWiring h

/-- A word that is no operation leaves the port and is answered as such (60_exceptions.md R285). -/
theorem step_of_decode_error {s : State} {p : Presented} {rest : List Presented} {e : DecodeError}
    (hport : s.port = p :: rest) (hdecode : decode p.word = .error e) :
    step s = illegalWord { s with port := rest, payloadIn := p.payload } := by
  have hfetch : fetch s = some (p.word, { s with port := rest, payloadIn := p.payload }) :=
    fetch_eq_some.mpr ⟨p, rest, hport, rfl, rfl⟩
  simp only [step, hfetch, hdecode]

/-- A presented word, an operation or not, runs with the wiring kept once it has left the port (00_scope.md R11). -/
theorem step_keepsWiring_of_port_cons {s t : State} {p : Presented} {rest : List Presented}
    (hport : s.port = p :: rest) (h : step s = .next t) :
    KeepsWiring { s with port := rest, payloadIn := p.payload } t := by
  cases hdecode : decode p.word with
  | ok i =>
    rw [step_of_decode_ok hport hdecode] at h
    exact exec_keepsWiring h
  | error e =>
    rw [step_of_decode_error hport hdecode] at h
    exact perform_keepsWiring (body := fun _ => .error .illegalOp) (fun _ _ _ h => nomatch h) h

/-- Settles O14: an idle step changes nothing, and any other takes one operation and runs it with the wiring kept. -/
theorem stepKeepsWiring : Obligations.StepKeepsWiring := by
  unfold Obligations.StepKeepsWiring
  intro s t h
  cases hport : s.port with
  | nil =>
    rw [step_of_port_nil hport] at h
    cases h
    exact ⟨rfl, hport, (KeepsWiring.refl s).events, Nat.le_refl _⟩
  | cons p rest =>
    obtain ⟨hcfg, hrest, hevents, hdraws⟩ := step_keepsWiring_of_port_cons hport h
    exact ⟨hcfg, hrest, hevents, hdraws⟩

end Sys2Proof.Machine
end

section
/-! Ownership (20_memory.md R73; 10_state.md R25, R26): with nothing due, an operation on a chip works on that chip
alone, from the bodies of the operations up to `exec`. -/

namespace Sys2Proof.Machine

/-- If `x` is the answer of a body run in `s`, it comes of work on chip `k` alone (20_memory.md R73). -/
def WorksOnlyOn (k : Nat) (s : State) (x : Result) : Prop := ∀ s' r, x = .ok (s', r) → OnlyChip k s s'

/-- What an operation on chip `k` leaves alone, its answer and a fault it raises included (20_memory.md R73). -/
structure ChipIsolated (k : Nat) (s t : State) : Prop where
  chip : ∀ j, j ≠ k → t.chip j = s.chip j
  alarm : ∀ a, a ≠ 3 * k → a ≠ 3 * k + 1 → a ≠ 3 * k + 2 → t.alarm a = s.alarm a
  source : ∀ n, n ≠ k → t.source n = s.source n
  cfg : t.cfg = s.cfg
  clk : t.clk = s.clk
  cpuMasked : t.cpuMasked = s.cpuMasked
  events : t.events = s.events
  port : t.port = s.port

/-! ### The shapes of a body -/

theorem worksOnlyOn_ok {k : Nat} {s s' : State} (h : OnlyChip k s s') (r : Reply) : WorksOnlyOn k s (.ok (s', r)) := by
  intro u r' hu
  cases hu
  exact h

/-- A change that can fault, with nothing returned. -/
theorem worksOnlyOn_effect {k : Nat} {s : State} {x : Except FaultCode State}
    (hx : ∀ s', x = .ok s' → OnlyChip k s s') : WorksOnlyOn k s (x >>= fun s' => .ok (s', .nothing)) := by
  intro u r hu
  obtain ⟨s', hs', hu⟩ := bind_eq_ok.mp hu
  cases hu
  exact hx _ hs'

/-- A check, then the rest of the body. -/
theorem worksOnlyOn_check {k : Nat} {s : State} {check : Except FaultCode Unit} {x : Result}
    (hx : WorksOnlyOn k s x) : WorksOnlyOn k s (check >>= fun _ => x) := by
  intro u r hu
  obtain ⟨-, -, hu⟩ := bind_eq_ok.mp hu
  exact hx u r hu

/-- With nothing due the implicit dispatch changes nothing (41_alarm_scheduler.md R128, R130). -/
theorem worksOnlyOn_onChip {k : Nat} {s : State} {body : State → Result} (hdue : s.NoneDue)
    (hbody : WorksOnlyOn k s (body s)) : WorksOnlyOn k s (onChip k s body) := by
  intro u r hu
  obtain ⟨-, s₁, n, hdispatch, hu⟩ := onChip_eq_ok.mp hu
  rw [dispatch_of_noneDue hdue] at hdispatch
  cases hdispatch
  exact hbody u r hu

/-- With nothing due the opening of an access reconciles the chip and does nothing else (44_chip_icr_sdr_ports.md R231,
R232). -/
theorem worksOnlyOn_accessChip {k : Nat} {s : State} {body : State → Result} (hdue : s.NoneDue)
    (hbody : ∀ s, WorksOnlyOn k s (body s)) : WorksOnlyOn k s (accessChip k s body) := by
  refine worksOnlyOn_onChip hdue fun u r hu => ?_
  obtain ⟨s₂, hupdate, hu⟩ := bind_eq_ok.mp hu
  exact (OnlyChip.updateTo hupdate).trans (hbody s₂ u r hu)

theorem worksOnlyOn_readChip {k : Nat} {s : State} (hdue : s.NoneDue) (value : State → Byte) :
    WorksOnlyOn k s (readChip k value s) :=
  worksOnlyOn_accessChip hdue fun s => worksOnlyOn_ok (OnlyChip.refl k s) _

theorem worksOnlyOn_writeChip {k : Nat} {s : State} (hdue : s.NoneDue) {effect : State → State}
    (heffect : ∀ s, OnlyChip k s (effect s)) : WorksOnlyOn k s (writeChip k effect s) :=
  worksOnlyOn_accessChip hdue fun s => worksOnlyOn_ok (heffect s) _

theorem worksOnlyOn_writeChipE {k : Nat} {s : State} (hdue : s.NoneDue) {effect : State → Except FaultCode State}
    (heffect : ∀ s s', effect s = .ok s' → OnlyChip k s s') : WorksOnlyOn k s (writeChipE k effect s) :=
  worksOnlyOn_accessChip hdue fun s => worksOnlyOn_effect (heffect s)

/-! ### The effects of the operations -/

theorem OnlyChip.setPortIn (k : Nat) (p : PortId) (v : Byte) (s : State) : OnlyChip k s (setPortIn k p v s) := by
  cases p <;> exact OnlyChip.setChip k _ s

theorem OnlyChip.todWrite (k : Nat) (i : TodField) (v : Byte) (s : State) : OnlyChip k s (todWrite k i v s) := by
  unfold Sys2Proof.Machine.todWrite
  dsimp only
  split <;> exact OnlyChip.setChip k _ s

/-- A change of the chip, with its source bit made to follow (44_chip_icr_sdr_ports.md R214). -/
theorem OnlyChip.setChip_updateLine (k : Nat) (e : Cycle) (c : Chip) (s : State) :
    OnlyChip k s (Sys2Proof.Machine.updateLine k e (s.setChip k c)) :=
  (OnlyChip.setChip k c s).trans (OnlyChip.updateLine k e _)

theorem OnlyChip.pulseChannel (k : Nat) (x : Channel) (s : State) : OnlyChip k s (pulseChannel k x s) := by
  unfold Sys2Proof.Machine.pulseChannel
  split
  · exact OnlyChip.countEvents k x _ _ _ _ s
  · exact OnlyChip.refl k s

/-! ### Operations -/

theorem OnlyChip.isolated_answer {k : Nat} {s s' : State} (h : OnlyChip k s s') (r : Reply) :
    ChipIsolated k s (s'.answer r) :=
  ⟨h.chip, h.alarm, h.source, h.cfg, h.clk, h.cpuMasked, h.events, h.port⟩

/-- However an operation ends, it changes no more than its body does, the fault and the response
(60_exceptions.md R280, R287). -/
theorem perform_isolated {k : Nat} {s t : State} {body : State → Result} (h : perform s body = .next t)
    (hbody : WorksOnlyOn k s (body s)) : ChipIsolated k s t := by
  rcases perform_cases s body with ⟨f, -, hend⟩ | ⟨-, s', r, hok, hend⟩ | ⟨-, f, -, hend⟩
  · cases hend.symm.trans h
    exact (OnlyChip.refl k s).isolated_answer _
  · cases hend.symm.trans h
    exact (hbody s' r hok).isolated_answer r
  · cases hend.symm.trans h
    exact ⟨fun _ _ => rfl, fun _ _ _ _ => rfl, fun _ _ => rfl, rfl, rfl, rfl, rfl, rfl⟩

theorem execSnapRestore_isolated {k : Nat} {s t : State} (hdue : s.NoneDue) (h : execSnapRestore k s = .next t) :
    ChipIsolated k s t := by
  refine perform_isolated h (worksOnlyOn_check (worksOnlyOn_onChip hdue ?_))
  split
  · exact worksOnlyOn_ok (OnlyChip.refl k s) _
  · exact worksOnlyOn_effect fun _ h => OnlyChip.restoreFrom h

/-- With nothing due every operation on a chip works on that chip alone (20_memory.md R73). -/
theorem exec_isolated {i : Instr} {k : Nat} {s t : State} (hk : i.chipOperand = some k) (hdue : s.NoneDue)
    (h : exec i s = .next t) : ChipIsolated k s t := by
  cases i <;> cases hk <;> dsimp only [exec] at h
  case chipReset =>
    exact perform_isolated h (worksOnlyOn_onChip hdue (worksOnlyOn_effect fun _ h => (chipReset_onlyChip h).1))
  case chipReadPra | chipReadPrb | chipReadDdra | chipReadDdrb | chipReadTalo | chipReadTahi | chipReadTblo
      | chipReadTbhi | chipReadSdr | chipReadCra | chipReadCrb | chipPeek | portOut =>
    exact perform_isolated h (worksOnlyOn_readChip hdue _)
  case chipReadTod10 | chipReadTodsec | chipReadTodmin | chipReadTodhr =>
    exact perform_isolated h (worksOnlyOn_accessChip hdue fun s => worksOnlyOn_ok (OnlyChip.setChip k _ s) _)
  case chipReadIcr =>
    exact perform_isolated h
      (worksOnlyOn_accessChip hdue fun s => worksOnlyOn_ok (OnlyChip.setChip_updateLine k _ _ s) _)
  case chipWritePra | chipWritePrb | chipWriteDdra | chipWriteDdrb | chipWriteSdr =>
    exact perform_isolated h (worksOnlyOn_writeChip hdue fun s => OnlyChip.setChip k _ s)
  case chipWriteTalo | chipWriteTahi | chipWriteTblo | chipWriteTbhi =>
    exact perform_isolated h (worksOnlyOn_writeChipE hdue fun _ _ h => OnlyChip.writeLatchByte h)
  case chipWriteTod10 | chipWriteTodsec | chipWriteTodmin | chipWriteTodhr =>
    exact perform_isolated h (worksOnlyOn_writeChip hdue fun s => OnlyChip.todWrite k _ _ s)
  case chipWriteIcr =>
    exact perform_isolated h (worksOnlyOn_writeChip hdue fun s => OnlyChip.setChip_updateLine k _ _ s)
  case chipWriteCra | chipWriteCrb =>
    exact perform_isolated h (worksOnlyOn_writeChipE hdue fun _ _ h => OnlyChip.writeControl h)
  case chipUpdate =>
    exact perform_isolated h
      (worksOnlyOn_onChip hdue (worksOnlyOn_check (worksOnlyOn_effect fun _ h => OnlyChip.updateTo h)))
  case portIn p v =>
    exact perform_isolated h (worksOnlyOn_onChip hdue (worksOnlyOn_ok (OnlyChip.setPortIn k p v s) _))
  case extPulse =>
    exact perform_isolated h
      (worksOnlyOn_writeChip hdue fun s => (OnlyChip.pulseChannel k .A s).trans (OnlyChip.pulseChannel k .B _))
  case snapSave =>
    exact perform_isolated h
      (worksOnlyOn_check (worksOnlyOn_accessChip hdue fun s => worksOnlyOn_ok (OnlyChip.refl k s) _))
  case snapRestore => exact execSnapRestore_isolated hdue h

/-- Settles O60: with nothing due the frame of the operation's body is the frame of the operation. -/
theorem chipOperationsAreIsolated : Obligations.ChipOperationsAreIsolated := by
  unfold Obligations.ChipOperationsAreIsolated
  intro s t i k hk hdue h
  obtain ⟨hchip, halarm, hsource, hcfg, hclk, hmask, hevents, hport⟩ := exec_isolated hk hdue h
  exact ⟨hchip, halarm, hsource, hcfg, hclk, hmask, hevents, hport⟩

end Sys2Proof.Machine
end

section
/-! What reconciliation can do to a chip (43_chip_timers.md R163 to R166), said once: the relation `Reconciling` holds
of every part of it, from a flag that is set up to `updateTo`. The effects of underflows have finer relations for what
they do to the two channels: `FlagWork`, which leaves both alone, and `CascadeWork`, which leaves channel A alone. -/

namespace Sys2Proof.Machine

/-! ### Masked bytes -/

theorem and_eq_of_and_eq {a b m n : Byte} (h : a &&& m = b &&& m) (hmn : m &&& n = n) : a &&& n = b &&& n := by
  rw [← hmn, ← BitVec.and_assoc, h, BitVec.and_assoc]

theorem and_or_eq_of_and_eq_zero {f bit m : Byte} (h : bit &&& m = 0) : (f ||| bit) &&& m = f &&& m := by
  rw [BitVec.and_comm, BitVec.and_or_distrib_left, BitVec.and_comm m bit, h, BitVec.and_comm m f]
  exact BitVec.or_zero

theorem or_and_self (f bit : Byte) : (f ||| bit) &&& f = f := by
  ext i hi
  simp only [BitVec.getElem_and, BitVec.getElem_or]
  cases f[i] <;> simp

theorem clearStart_and (v : Byte) : clearStart v &&& 0xFE = v &&& 0xFE := by
  rw [clearStart, BitVec.and_assoc]
  rfl

theorem clearStart_clearStart (v : Byte) : clearStart (clearStart v) = clearStart v := clearStart_and v

/-- With its start bit cleared a channel is stopped (10_state.md R37). -/
theorem ctlState_clearStart (x : Channel) (v : Byte) : ctlState x (clearStart v) = .stopped := by
  simp [ctlState, clearStart]

/-! ### Chips of a state -/

theorem State.setChip_eq_self_of_le {k : Nat} {s : State} (c : Chip) (h : s.chips.length ≤ k) : s.setChip k c = s := by
  unfold State.setChip
  rw [List.set_eq_of_length_le h]

/-- A change of chip `k` takes place, or there is no chip `k` and nothing happens. -/
theorem State.setChip_cases (s : State) (k : Nat) (c : Chip) :
    (k < s.chips.length ∧ (s.setChip k c).chip k = c) ∨ s.setChip k c = s := by
  by_cases hk : k < s.chips.length
  · exact .inl ⟨hk, State.chip_setChip_self s c hk⟩
  · exact .inr (State.setChip_eq_self_of_le c (Nat.le_of_not_lt hk))

theorem State.chip_eq_of_chips_eq {s s' : State} (h : s'.chips = s.chips) (k : Nat) : s'.chip k = s.chip k := by
  simp [State.chip, h]

theorem State.alarm_eq_of_alarms_eq {s s' : State} (h : s'.alarms = s.alarms) (a : Nat) : s'.alarm a = s.alarm a := by
  simp [State.alarm, h]

@[simp] theorem State.chip_aggSet (n : Nat) (b : Bool) (e : Cycle) (s : State) (k : Nat) :
    (aggSet n b e s).chip k = s.chip k := State.chip_eq_of_chips_eq (aggSet_chips n b e s) k

@[simp] theorem State.chip_updateLine (j : Nat) (e : Cycle) (s : State) (k : Nat) :
    (updateLine j e s).chip k = s.chip k := State.chip_aggSet j _ e s k

@[simp] theorem updateLine_alarms (k : Nat) (e : Cycle) (s : State) : (updateLine k e s).alarms = s.alarms :=
  aggSet_alarms k _ e s

@[simp] theorem updateLine_chips (k : Nat) (e : Cycle) (s : State) : (updateLine k e s).chips = s.chips :=
  aggSet_chips k _ e s

theorem ChipKept.refl (c : Chip) : ChipKept c c := by constructor <;> rfl

theorem ChipKept.trans {a b c : Chip} (h : ChipKept a b) (g : ChipKept b c) : ChipKept a c where
  latchA := g.latchA.trans h.latchA
  latchB := g.latchB.trans h.latchB
  cra := g.cra.trans h.cra
  crb := g.crb.trans h.crb
  mask := g.mask.trans h.mask
  lastRead := g.lastRead.trans h.lastRead
  sdr := g.sdr.trans h.sdr
  todAlarm := g.todAlarm.trans h.todAlarm
  todLatch := g.todLatch.trans h.todLatch
  todStopped := g.todStopped.trans h.todStopped
  todLatched := g.todLatched.trans h.todLatched
  pra := g.pra.trans h.pra
  prb := g.prb.trans h.prb
  ddra := g.ddra.trans h.ddra
  ddrb := g.ddrb.trans h.ddrb
  inA := g.inA.trans h.inA
  inB := g.inB.trans h.inB

/-- The latch of a channel is not a cached field (20_memory.md R67). -/
theorem ChipKept.setChan (c : Chip) (x : Channel) {ch : Chan} (h : ch.latch = (c.chan x).latch) :
    ChipKept c (c.setChan x ch) := by
  cases x
  · exact { ChipKept.refl c with latchA := h }
  · exact { ChipKept.refl c with latchB := h }

/-- The chip clears no bit of a control register but the start bit (20_memory.md R67). -/
theorem ChipKept.setCtl_clearStart (c : Chip) (x : Channel) : ChipKept c (c.setCtl x (clearStart (c.ctl x))) := by
  cases x
  · exact { ChipKept.refl c with cra := clearStart_and c.cra }
  · exact { ChipKept.refl c with crb := clearStart_and c.crb }

/-! ### The source bit of a chip -/

/-- Chip `k` and its source are in the tables, and the source bit is the chip's summary (43_chip_timers.md R162). -/
structure Tracked (k : Nat) (s : State) : Prop where
  chip_lt : k < s.chips.length
  src_lt : k < s.src.length
  source_eq : s.source k = (s.chip k).summary

/-- The summary is a function of the flags and the mask, and grows with the flags (44_chip_icr_sdr_ports.md R215). -/
theorem Chip.summary_mono {c c' : Chip} (hmask : c'.mask = c.mask) (hflags : c'.flags &&& c.flags = c.flags)
    (h : c.summary = true) : c'.summary = true := by
  simp only [Chip.summary, decide_eq_true_eq] at h ⊢
  intro hzero
  apply h
  calc c.flags &&& c.mask &&& 0x0F = c.flags &&& (c'.flags &&& c'.mask &&& 0x0F) := by
        rw [hmask, ← BitVec.and_assoc, ← BitVec.and_assoc, BitVec.and_comm c.flags c'.flags, hflags]
    _ = 0 := by rw [hzero]; exact BitVec.and_zero

theorem State.lineClk_aggSet_ne {n : Nat} {b : Bool} {e : Cycle} {s : State} {l : Line} (h : l ≠ s.lineOf n) :
    (aggSet n b e s).lineClk l = s.lineClk l := by
  rcases aggSet_cases n b e s with ⟨-, h'⟩ | ⟨-, h'⟩ <;> rw [h']
  · rw [State.lineClk_setLineClk_ne _ _ h, State.lineClk_setSource]
  · exact State.lineClk_setSource s n b l

/-- A line stamp is left alone or becomes the cycle given (42_interrupt_aggregator.md R143). -/
theorem State.lineClk_aggSet_cases (n : Nat) (b : Bool) (e : Cycle) (s : State) (l : Line) :
    (aggSet n b e s).lineClk l = s.lineClk l ∨ (aggSet n b e s).lineClk l = e := by
  by_cases hl : l = s.lineOf n
  · subst hl
    rcases aggSet_cases n b e s with ⟨-, h⟩ | ⟨-, h⟩ <;> rw [h]
    · exact .inr (State.lineClk_setLineClk_self _ _ _)
    · exact .inl (State.lineClk_setSource s n b _)
  · exact .inl (State.lineClk_aggSet_ne hl)

/-- The source bit is made the summary (44_chip_icr_sdr_ports.md R214). -/
theorem tracked_updateLine {k : Nat} (e : Cycle) {s : State} (hchip : k < s.chips.length) (hsrc : k < s.src.length) :
    Tracked k (updateLine k e s) where
  chip_lt := by simpa using hchip
  src_lt := by simpa [updateLine] using hsrc
  source_eq := by
    rw [State.chip_updateLine]
    simp [State.source, updateLine, List.getD_eq_getElem?_getD, hsrc]

/-! ### The alarm table -/

/-- Armed targets are below `NEVER`, and disarmed slots read `NEVER` (10_state.md R24). -/
def Alarm.Sound (al : Alarm) : Prop :=
  (al.armed = true → al.target.toNat < neverNat) ∧ (al.armed = false → al.target = never)

theorem Alarm.sound_disarmed : Alarm.Sound ⟨false, never⟩ := ⟨fun h => (nomatch h), fun _ => rfl⟩

theorem Alarm.sound_armed {u : Cycle} (h : u.toNat < neverNat) : Alarm.Sound ⟨true, u⟩ :=
  ⟨fun _ => h, fun h => (nomatch h)⟩

/-- Every slot of the table is sound. -/
def State.AlarmsSound (s : State) : Prop := ∀ al ∈ s.alarms, al.Sound

theorem State.AlarmsSound.setAlarm {s : State} (h : s.AlarmsSound) (a : Nat) {al : Alarm} (hal : al.Sound) :
    (s.setAlarm a al).AlarmsSound := by
  intro al' hmem
  rcases List.mem_or_eq_of_mem_set hmem with hmem | rfl
  · exact h al' hmem
  · exact hal

/-! ### Parts of a reconciliation -/

/-- From `s` to `s'` goes work on chip `k` that a reconciliation is made of: it changes no more of the chip than the
cached fields, sets flags outside `spared`, keeps the source bit and the alarm table sound, stamps a line at no cycle
after `c`, and stamps none without a change of the summary (20_memory.md R67; 43_chip_timers.md R166). -/
structure Reconciling (k c : Nat) (spared : Byte) (s s' : State) : Prop where
  only : OnlyChip k s s'
  kept : ChipKept (s.chip k) (s'.chip k)
  tod : (s'.chip k).tod = (s.chip k).tod
  srBits_le : (s'.chip k).srBits.toNat ≤ (s.chip k).srBits.toNat
  flags_grow : (s'.chip k).flags &&& (s.chip k).flags = (s.chip k).flags
  flags_spared : (s'.chip k).flags &&& spared = (s.chip k).flags &&& spared
  alarm_tod : s'.alarm (todSlot k) = s.alarm (todSlot k)
  alarmsSound : s.AlarmsSound → s'.AlarmsSound
  tracked : Tracked k s → Tracked k s'
  stamp_le : ∀ l, (s.lineClk l).toNat ≤ c → (s'.lineClk l).toNat ≤ c
  stamp_eq : Tracked k s → (s'.chip k).summary = (s.chip k).summary → ∀ l, s'.lineClk l = s.lineClk l

section
variable {k c : Nat} {spared : Byte} {s s' s'' : State}

theorem Reconciling.refl (k c : Nat) (spared : Byte) (s : State) : Reconciling k c spared s s where
  only := OnlyChip.refl k s
  kept := ChipKept.refl _
  tod := rfl
  srBits_le := Nat.le_refl _
  flags_grow := BitVec.and_self
  flags_spared := rfl
  alarm_tod := rfl
  alarmsSound := id
  tracked := id
  stamp_le := fun _ => id
  stamp_eq := fun _ _ _ => rfl

theorem Reconciling.summary_mono (h : Reconciling k c spared s s') (hs : (s.chip k).summary = true) :
    (s'.chip k).summary = true :=
  Chip.summary_mono h.kept.mask h.flags_grow hs

/-- The summary can only rise on the way, so where it ends as it began no part of the way changed it. -/
theorem Reconciling.trans (h : Reconciling k c spared s s') (g : Reconciling k c spared s' s'') :
    Reconciling k c spared s s'' where
  only := h.only.trans g.only
  kept := h.kept.trans g.kept
  tod := g.tod.trans h.tod
  srBits_le := Nat.le_trans g.srBits_le h.srBits_le
  flags_grow := by
    rw [← h.flags_grow, ← BitVec.and_assoc, g.flags_grow]
  flags_spared := g.flags_spared.trans h.flags_spared
  alarm_tod := g.alarm_tod.trans h.alarm_tod
  alarmsSound := g.alarmsSound ∘ h.alarmsSound
  tracked := g.tracked ∘ h.tracked
  stamp_le := fun l hl => g.stamp_le l (h.stamp_le l hl)
  stamp_eq := by
    intro ht hsum l
    have hmid : (s'.chip k).summary = (s.chip k).summary := by
      have h₁ := h.summary_mono
      have h₂ := g.summary_mono
      rw [hsum] at h₂
      exact Bool.eq_iff_iff.mpr ⟨h₂, h₁⟩
    rw [g.stamp_eq (h.tracked ht) (hsum.trans hmid.symm) l, h.stamp_eq ht hmid l]

/-- Fewer flags can be claimed to be spared. -/
theorem Reconciling.spare {fewer : Byte} (h : Reconciling k c spared s s') (hfewer : spared &&& fewer = fewer) :
    Reconciling k c fewer s s' :=
  { h with flags_spared := and_eq_of_and_eq h.flags_spared hfewer }

/-- A change of cached fields that no flag is among. -/
theorem Reconciling.setChip {chip : Chip} (hkept : ChipKept (s.chip k) chip) (htod : chip.tod = (s.chip k).tod)
    (hsr : chip.srBits.toNat ≤ (s.chip k).srBits.toNat) (hflags : chip.flags = (s.chip k).flags) :
    Reconciling k c spared s (s.setChip k chip) := by
  rcases State.setChip_cases s k chip with ⟨hk, hchip⟩ | hsame
  · have hsum : chip.summary = (s.chip k).summary := by simp [Chip.summary, hflags, hkept.mask]
    exact {
      only := OnlyChip.setChip k chip s
      kept := by rwa [hchip]
      tod := by rwa [hchip]
      srBits_le := by rwa [hchip]
      flags_grow := by rw [hchip, hflags, BitVec.and_self]
      flags_spared := by rw [hchip, hflags]
      alarm_tod := rfl
      alarmsSound := id
      tracked := fun ht => ⟨by simpa using hk, ht.src_lt, by rw [State.source_setChip, hchip, hsum, ht.source_eq]⟩
      stamp_le := fun l hl => by rwa [State.lineClk_setChip]
      stamp_eq := fun _ _ l => State.lineClk_setChip s k chip l }
  · rw [hsame]
    exact Reconciling.refl k c spared s

theorem Reconciling.setChan (x : Channel) {ch : Chan} (hlatch : ch.latch = ((s.chip k).chan x).latch) :
    Reconciling k c spared s (s.setChan k x ch) :=
  Reconciling.setChip (ChipKept.setChan _ x hlatch) (Chip.setChan_tod _ x ch) (by rw [Chip.setChan_srBits])
    (Chip.setChan_flags _ x ch)

/-- The chip clears a start bit (43_chip_timers.md R163, R165). -/
theorem Reconciling.clearStart (x : Channel) :
    Reconciling k c spared s (s.setCtl k x (clearStart ((s.chip k).ctl x))) :=
  Reconciling.setChip (ChipKept.setCtl_clearStart _ x) (Chip.setCtl_tod _ x _) (by rw [Chip.setCtl_srBits])
    (Chip.setCtl_flags _ x _)

theorem Reconciling.setAlarm (x : Channel) {al : Alarm} (hal : al.Sound) :
    Reconciling k c spared s (s.setAlarm (slotOf k x) al) :=
  { Reconciling.refl k c spared s with
    only := OnlyChip.setAlarm (ownSlot k x) al s
    kept := ChipKept.refl _
    alarm_tod := State.alarm_setAlarm_ne s al (slotOf_ne_todSlot k k x).symm
    alarmsSound := fun h => h.setAlarm _ hal
    tracked := fun ht => ⟨ht.chip_lt, ht.src_lt, ht.source_eq⟩
    stamp_le := fun l hl => by rwa [State.lineClk_setAlarm]
    stamp_eq := fun _ _ l => State.lineClk_setAlarm s _ al l }

/-- The live values are stored (43_chip_timers.md R166). -/
theorem Reconciling.storeLive (cycle : Cycle) : Reconciling k c spared s (storeLive k cycle s) :=
  Reconciling.setChip (by constructor <;> rfl) rfl (Nat.le_refl _) rfl

end

/-! ### Effects that leave both channels alone -/

/-- Work of a reconciliation that leaves the alarm table and the channels of the chip alone. -/
structure FlagWork (k c : Nat) (spared : Byte) (s s' : State) : Prop extends Reconciling k c spared s s' where
  alarms : s'.alarms = s.alarms
  chan : ∀ x, (s'.chip k).chan x = (s.chip k).chan x
  ctl : ∀ x, (s'.chip k).ctl x = (s.chip k).ctl x

section
variable {k c : Nat} {spared : Byte} {s s' s'' : State}

theorem FlagWork.refl (k c : Nat) (spared : Byte) (s : State) : FlagWork k c spared s s :=
  ⟨Reconciling.refl k c spared s, rfl, fun _ => rfl, fun _ => rfl⟩

theorem FlagWork.trans (h : FlagWork k c spared s s') (g : FlagWork k c spared s' s'') : FlagWork k c spared s s'' :=
  ⟨h.toReconciling.trans g.toReconciling, g.alarms.trans h.alarms, fun x => (g.chan x).trans (h.chan x),
    fun x => (g.ctl x).trans (h.ctl x)⟩

theorem FlagWork.spare {fewer : Byte} (h : FlagWork k c spared s s') (hfewer : spared &&& fewer = fewer) :
    FlagWork k c fewer s s' :=
  ⟨h.toReconciling.spare hfewer, h.alarms, h.chan, h.ctl⟩

/-- What `SetFlag` does where no read has won: the flag is stored and the source follows (44_chip_icr_sdr_ports.md
R210, R214). -/
theorem setFlag_of_not_readWon {bit : Byte} {e : Cycle} (h : readWon k e s = false) :
    setFlag k bit e s = updateLine k e (s.setChip k { s.chip k with flags := (s.chip k).flags ||| bit }) := by
  simp [setFlag, h]

theorem setFlag_of_readWon {bit : Byte} {e : Cycle} (h : readWon k e s = true) : setFlag k bit e s = s := by
  simp [setFlag, h]

/-- The source of a tracked chip follows its summary without a stamp where the summary is what it was
(42_interrupt_aggregator.md R143). -/
theorem updateLine_setChip_of_summary {chip : Chip} {e : Cycle} (ht : Tracked k s)
    (hsum : chip.summary = (s.chip k).summary) : updateLine k e (s.setChip k chip) = s.setChip k chip := by
  unfold updateLine
  rw [State.chip_setChip_self s chip ht.chip_lt, hsum]
  exact aggSet_self e (by rw [State.source_setChip, ht.source_eq]) ht.src_lt

/-- The flag is set in the chip, unless a read has won or there is no chip `k` (44_chip_icr_sdr_ports.md R210). -/
theorem chip_setFlag_cases (k : Nat) (bit : Byte) (e : Cycle) (s : State) :
    (setFlag k bit e s).chip k = { s.chip k with flags := (s.chip k).flags ||| bit } ∨
      (setFlag k bit e s).chip k = s.chip k := by
  cases hwon : readWon k e s with
  | true => exact .inr (by rw [setFlag_of_readWon hwon])
  | false =>
    rw [setFlag_of_not_readWon hwon, State.chip_updateLine]
    rcases State.setChip_cases s k { s.chip k with flags := (s.chip k).flags ||| bit } with ⟨-, h⟩ | h
    · exact .inl h
    · exact .inr (by rw [h])

@[simp] theorem setFlag_alarms (k : Nat) (bit : Byte) (e : Cycle) (s : State) :
    (setFlag k bit e s).alarms = s.alarms := by
  unfold setFlag
  split <;> simp

theorem lineClk_setFlag_cases (k : Nat) (bit : Byte) (e : Cycle) (s : State) (l : Line) :
    (setFlag k bit e s).lineClk l = s.lineClk l ∨ (setFlag k bit e s).lineClk l = e := by
  cases hwon : readWon k e s with
  | true => exact .inl (by rw [setFlag_of_readWon hwon])
  | false =>
    rw [setFlag_of_not_readWon hwon]
    exact State.lineClk_aggSet_cases k _ e _ l

theorem tracked_setFlag {bit : Byte} {e : Cycle} (ht : Tracked k s) : Tracked k (setFlag k bit e s) := by
  cases hwon : readWon k e s with
  | true => rwa [setFlag_of_readWon hwon]
  | false =>
    rw [setFlag_of_not_readWon hwon]
    exact tracked_updateLine e (by simpa using ht.chip_lt) ht.src_lt

/-- A flag that does not change the summary causes no edge (42_interrupt_aggregator.md R143). -/
theorem lineClk_setFlag_of_summary {bit : Byte} {e : Cycle} (ht : Tracked k s)
    (hsum : ((setFlag k bit e s).chip k).summary = (s.chip k).summary) (l : Line) :
    (setFlag k bit e s).lineClk l = s.lineClk l := by
  cases hwon : readWon k e s with
  | true => rw [setFlag_of_readWon hwon]
  | false =>
    rw [setFlag_of_not_readWon hwon, State.chip_updateLine, State.chip_setChip_self s _ ht.chip_lt] at hsum
    rw [setFlag_of_not_readWon hwon, updateLine_setChip_of_summary ht hsum, State.lineClk_setChip]

theorem FlagWork.setFlag {bit : Byte} {e : Cycle} (hbit : bit &&& spared = 0) (he : e.toNat ≤ c) :
    FlagWork k c spared s (setFlag k bit e s) := by
  have hchip := chip_setFlag_cases k bit e s
  exact {
    only := OnlyChip.setFlag k bit e s
    kept := by
      rcases hchip with h | h <;> rw [h]
      · constructor <;> rfl
      · exact ChipKept.refl _
    tod := by rcases hchip with h | h <;> rw [h]
    srBits_le := by rcases hchip with h | h <;> rw [h]
    flags_grow := by
      rcases hchip with h | h <;> rw [h]
      · exact or_and_self _ _
      · exact BitVec.and_self
    flags_spared := by
      rcases hchip with h | h <;> rw [h]
      exact and_or_eq_of_and_eq_zero hbit
    alarm_tod := State.alarm_eq_of_alarms_eq (setFlag_alarms k bit e s) _
    alarmsSound := fun h => by rwa [State.AlarmsSound, setFlag_alarms]
    tracked := tracked_setFlag
    stamp_le := fun l hl => by rcases lineClk_setFlag_cases k bit e s l with h | h <;> rw [h] <;> assumption
    stamp_eq := lineClk_setFlag_of_summary
    alarms := setFlag_alarms k bit e s
    chan := fun x => by rcases hchip with h | h <;> cases x <;> rw [h] <;> rfl
    ctl := fun x => by rcases hchip with h | h <;> cases x <;> rw [h] <;> rfl }

/-- The countdown of the shift register goes down (44_chip_icr_sdr_ports.md R218). -/
theorem FlagWork.setSrBits {sr : BitVec 5} (hsr : sr.toNat ≤ (s.chip k).srBits.toNat) :
    FlagWork k c spared s (s.setChip k { s.chip k with srBits := sr }) where
  toReconciling := Reconciling.setChip (by constructor <;> rfl) rfl hsr rfl
  alarms := rfl
  chan := fun x => by
    rcases State.setChip_cases s k { s.chip k with srBits := sr } with ⟨-, h⟩ | h <;> cases x <;> rw [h] <;> rfl
  ctl := fun x => by
    rcases State.setChip_cases s k { s.chip k with srBits := sr } with ⟨-, h⟩ | h <;> cases x <;> rw [h] <;> rfl

/-- The last of `n` underflows a period apart, the first at `e0`, is not after `c`. -/
theorem underflow_le {i n e0 P c : Nat} (hlast : e0 + (n - 1) * P ≤ c) (hi : i ≤ n - 1) :
    (BitVec.ofNat 32 (e0 + i * P)).toNat ≤ c := by
  calc (BitVec.ofNat 32 (e0 + i * P)).toNat ≤ e0 + i * P := by rw [BitVec.toNat_ofNat]; exact Nat.mod_le _ _
    _ ≤ e0 + (n - 1) * P := Nat.add_le_add_left (Nat.mul_le_mul_right P hi) e0
    _ ≤ c := hlast

/-- The half-bits of `n` underflows: the countdown, and the flag at the underflow that completes the transfer
(44_chip_icr_sdr_ports.md R218). -/
theorem FlagWork.shiftEvents {n e0 P : Nat} (hspared : flagSdr &&& spared = 0) (hlast : e0 + (n - 1) * P ≤ c) :
    FlagWork k c spared s (shiftEvents k n e0 P s) := by
  unfold Machine.shiftEvents
  dsimp only
  generalize hold : (s.chip k).srBits.toNat = old
  split
  · exact FlagWork.refl k c spared s
  · have hcount : FlagWork k c spared s
        (s.setChip k { s.chip k with srBits := BitVec.ofNat 5 (old - min n old) }) :=
      FlagWork.setSrBits (by rw [hold, BitVec.toNat_ofNat]; exact Nat.le_trans (Nat.mod_le _ _) (by omega))
    split <;> split
    · exact hcount.trans (FlagWork.setFlag hspared (underflow_le hlast (by omega)))
    · exact hcount
    · exact hcount.trans (FlagWork.setFlag hspared (underflow_le hlast (by omega)))
    · exact hcount

theorem FlagWork.clockShift {n e0 P : Nat} (hspared : flagSdr &&& spared = 0) (hlast : e0 + (n - 1) * P ≤ c) :
    FlagWork k c spared s (clockShift k n e0 P s) := by
  unfold Machine.clockShift
  split
  · exact FlagWork.shiftEvents hspared hlast
  · exact FlagWork.refl k c spared s

theorem FlagWork.underflowEffectsB {e0 : Nat} (hspared : flagOf .B &&& spared = 0) (he : e0 ≤ c) :
    FlagWork k c spared s (underflowEffectsB k e0 s) :=
  FlagWork.setFlag hspared (Nat.le_trans (by rw [BitVec.toNat_ofNat]; exact Nat.mod_le _ _) he)

end

/-! ### Effects that count in channel B -/

/-- Work of a reconciliation that leaves the alarm table and channel A alone; of channel B it leaves alone the next
underflow and the control register but for the start bit (43_chip_timers.md R164, R165). -/
structure CascadeWork (k c : Nat) (spared : Byte) (s s' : State) : Prop extends Reconciling k c spared s s' where
  alarms : s'.alarms = s.alarms
  chanA : (s'.chip k).chanA = (s.chip k).chanA
  cra : (s'.chip k).cra = (s.chip k).cra
  uB : (s'.chip k).chanB.u = (s.chip k).chanB.u
  crb : (s'.chip k).crb = (s.chip k).crb ∨ (s'.chip k).crb = clearStart (s.chip k).crb

section
variable {k c : Nat} {spared : Byte} {s s' s'' : State}

theorem FlagWork.cascadeWork (h : FlagWork k c spared s s') : CascadeWork k c spared s s' :=
  ⟨h.toReconciling, h.alarms, h.chan .A, h.ctl .A, congrArg Chan.u (h.chan .B), .inl (h.ctl .B)⟩

theorem CascadeWork.refl (k c : Nat) (spared : Byte) (s : State) : CascadeWork k c spared s s :=
  (FlagWork.refl k c spared s).cascadeWork

theorem CascadeWork.trans (h : CascadeWork k c spared s s') (g : CascadeWork k c spared s' s'') :
    CascadeWork k c spared s s'' where
  toReconciling := h.toReconciling.trans g.toReconciling
  alarms := g.alarms.trans h.alarms
  chanA := g.chanA.trans h.chanA
  cra := g.cra.trans h.cra
  uB := g.uB.trans h.uB
  crb := by
    rcases h.crb with h | h <;> rcases g.crb with g | g <;> rw [g, h]
    · exact .inl rfl
    · exact .inr rfl
    · exact .inr rfl
    · exact .inr (clearStart_clearStart _)

/-- Channel B's counter and toggle are written (43_chip_timers.md R165). -/
theorem CascadeWork.setChanB {ch : Chan} (hlatch : ch.latch = (s.chip k).chanB.latch)
    (hu : ch.u = (s.chip k).chanB.u) : CascadeWork k c spared s (s.setChan k .B ch) := by
  have hwork : Reconciling k c spared s (s.setChan k .B ch) := Reconciling.setChan .B hlatch
  unfold State.setChan at hwork ⊢
  rcases State.setChip_cases s k ((s.chip k).setChan .B ch) with ⟨-, h⟩ | h
  · exact ⟨hwork, rfl, by rw [h]; rfl, by rw [h]; rfl, by rw [h]; exact hu, .inl (by rw [h]; rfl)⟩
  · rw [h]
    exact CascadeWork.refl k c spared s

theorem CascadeWork.clearStartB :
    CascadeWork k c spared s (s.setCtl k .B (clearStart ((s.chip k).ctl .B))) := by
  have hwork : Reconciling k c spared s (s.setCtl k .B (clearStart ((s.chip k).ctl .B))) := Reconciling.clearStart .B
  unfold State.setCtl at hwork ⊢
  rcases State.setChip_cases s k ((s.chip k).setCtl .B (clearStart ((s.chip k).ctl .B))) with ⟨-, h⟩ | h
  · exact ⟨hwork, rfl, by rw [h]; rfl, by rw [h]; rfl, by rw [h]; rfl, .inr (by rw [h]; rfl)⟩
  · rw [h]
    exact CascadeWork.refl k c spared s

theorem CascadeWork.stopOneShotB : CascadeWork k c spared s (stopOneShot k .B s) := by
  unfold stopOneShot
  split
  · exact CascadeWork.clearStartB
  · exact CascadeWork.refl k c spared s

/-- One count event of channel B (43_chip_timers.md R165). -/
theorem CascadeWork.countOneB {underflow : State → State} (hu : ∀ s, CascadeWork k c spared s (underflow s)) :
    CascadeWork k c spared s (countOne underflow k .B s) := by
  unfold countOne
  dsimp only
  split
  · refine CascadeWork.trans (CascadeWork.trans (CascadeWork.setChanB ?_ ?_) CascadeWork.stopOneShotB) (hu _) <;> rfl
  · exact CascadeWork.setChanB rfl rfl

/-- Count events of channel B, the last of them not after `c` (43_chip_timers.md R165). -/
theorem CascadeWork.countLoopB {underflow : Nat → State → State} {mode : ChanState} {n e P : Nat}
    (hu : ∀ e s, e ≤ c → CascadeWork k c spared s (underflow e s)) (hlast : e + (n - 1) * P ≤ c) :
    CascadeWork k c spared s (countLoop underflow k .B mode P n e s) := by
  induction n generalizing e s with
  | zero => exact CascadeWork.refl k c spared s
  | succ n ih =>
    unfold countLoop
    split
    · exact CascadeWork.refl k c spared s
    · have hfirst : CascadeWork k c spared s (countOne (underflow e) k .B s) :=
        CascadeWork.countOneB fun s => hu e s (by omega)
      cases n with
      | zero => exact hfirst
      | succ n =>
        refine hfirst.trans (ih ?_)
        simp only [Nat.add_sub_cancel, Nat.succ_mul] at hlast ⊢
        omega

/-- A channel B that counts no underflows of A sees none (43_chip_timers.md R164). -/
theorem cascade_of_not_cascaded {n e0 P : Nat} (h : (s.chip k).chanState .B ≠ .runningCascade) :
    cascade k n e0 P s = s := if_neg h

theorem CascadeWork.cascade {n e0 P : Nat} (hspared : flagOf .B &&& spared = 0) (hlast : e0 + (n - 1) * P ≤ c) :
    CascadeWork k c spared s (cascade k n e0 P s) := by
  unfold Machine.cascade
  split
  · exact CascadeWork.countLoopB (fun e s he => (FlagWork.underflowEffectsB hspared he).cascadeWork) hlast
  · exact CascadeWork.refl k c spared s

/-- What the underflows of a channel have for effects (43_chip_timers.md R164). -/
theorem CascadeWork.underflowEffects {x : Channel} {n e0 P : Nat} (hlast : e0 + (n - 1) * P ≤ c) :
    CascadeWork k c 0xF4 s (underflowEffects k x n e0 P s) := by
  have hfirst : (BitVec.ofNat 32 e0).toNat ≤ c := by
    simpa using underflow_le (i := 0) hlast (Nat.zero_le _)
  cases x with
  | A =>
    have hflag : FlagWork k c 0xF4 s (Machine.setFlag k (flagOf .A) (BitVec.ofNat 32 e0) s) :=
      FlagWork.setFlag rfl hfirst
    exact (hflag.trans (FlagWork.clockShift rfl hlast)).cascadeWork.trans (CascadeWork.cascade rfl hlast)
  | B => exact (FlagWork.setFlag rfl hfirst).cascadeWork

/-- Underflows of A that no channel B counts leave both channels and the flag of B alone (43_chip_timers.md R164). -/
theorem FlagWork.underflowEffectsA {n e0 P : Nat} (hlast : e0 + (n - 1) * P ≤ c)
    (hB : (s.chip k).chanState .B ≠ .runningCascade) : FlagWork k c 0xF6 s (underflowEffectsA k n e0 P s) := by
  have hfirst : (BitVec.ofNat 32 e0).toNat ≤ c := by
    simpa using underflow_le (i := 0) hlast (Nat.zero_le _)
  have hflag : FlagWork k c 0xF6 s (Machine.setFlag k (flagOf .A) (BitVec.ofNat 32 e0) s) := FlagWork.setFlag rfl hfirst
  have hwork := hflag.trans (FlagWork.clockShift (n := n) (e0 := e0) (P := P) rfl hlast)
  unfold Machine.underflowEffectsA
  rw [cascade_of_not_cascaded]
  · exact hwork
  · rwa [Chip.chanState, hwork.ctl .B]

end

end Sys2Proof.Machine
end

section
/-! What `ChanCatchUp` and `UpdateTo` can do (43_chip_timers.md R163, R166): a channel whose underflow has come takes
its underflows (`takeUnderflows`), then these have their effects. -/

namespace Sys2Proof.Machine

/-! ### A channel takes its underflows -/

/-- Channel `x` is running and its next underflow has come (43_chip_timers.md R163). -/
def Chip.UnderflowDue (chip : Chip) (x : Channel) (c : Cycle) : Prop :=
  chip.chanState x = .running ∧ (chip.chan x).u ≤ c

/-- The period of a channel (43_chip_timers.md R163). -/
def Chip.period (chip : Chip) (x : Channel) : Nat := (chip.chan x).latch.toNat + 1

/-- How many underflows channel `x` takes in a reconciliation at `c` (43_chip_timers.md R163). -/
def Chip.underflowsTo (chip : Chip) (x : Channel) (c : Cycle) : Nat :=
  underflowCount (chip.oneShot x) (chip.chan x).u.toNat (chip.period x) c.toNat

/-- The first underflow after those that channel `x` takes at `c`, if it is not one-shot (43_chip_timers.md R163). -/
def Chip.rescheduled (chip : Chip) (x : Channel) (c : Cycle) : Nat :=
  (chip.chan x).u.toNat + chip.underflowsTo x c * chip.period x

/-- `U[x]` after the underflows (43_chip_timers.md R163). -/
def Chip.uAfter (chip : Chip) (x : Channel) (c : Cycle) : Cycle :=
  if chip.oneShot x then never else BitVec.ofNat 32 (chip.rescheduled x c)

/-- Channel `x` after the underflows: reloaded, its toggle flipped once for each (43_chip_timers.md R163). -/
def Chip.reloaded (chip : Chip) (x : Channel) (c : Cycle) : Chan where
  latch := (chip.chan x).latch
  cnt := (chip.chan x).latch
  u := chip.uAfter x c
  toggle := if chip.underflowsTo x c % 2 = 1 then !(chip.chan x).toggle else (chip.chan x).toggle

/-- The slot of channel `x` after the underflows (43_chip_timers.md R163). -/
def Chip.slotAfter (chip : Chip) (x : Channel) (c : Cycle) : Alarm := ⟨!chip.oneShot x, chip.uAfter x c⟩

/-- Chip `k` as channel `x` takes its underflows, before they have effects (43_chip_timers.md R163). -/
def takeUnderflows (k : Nat) (x : Channel) (c : Cycle) (s : State) : State :=
  ((stopOneShot k x s).setChan k x ((s.chip k).reloaded x c)).setAlarm (slotOf k x) ((s.chip k).slotAfter x c)

/-- The underflows of channel `x` at `c` have their effects (43_chip_timers.md R163, R164). -/
def catchUpEffects (k : Nat) (x : Channel) (c : Cycle) (s : State) : State :=
  underflowEffects k x ((s.chip k).underflowsTo x c) ((s.chip k).chan x).u.toNat ((s.chip k).period x)
    (takeUnderflows k x c s)

theorem chanCatchUp_of_not_due {k : Nat} {x : Channel} {c : Cycle} {s : State} (h : ¬(s.chip k).UnderflowDue x c) :
    chanCatchUp k x c s = .ok s := if_neg h

/-- A due one-shot channel stops and disarms its alarm (43_chip_timers.md R163). -/
theorem chanCatchUp_of_oneShot {k : Nat} {x : Channel} {c : Cycle} {s : State} (hdue : (s.chip k).UnderflowDue x c)
    (hshot : (s.chip k).oneShot x = true) : chanCatchUp k x c s = .ok (catchUpEffects k x c s) := by
  have htake : takeUnderflows k x c s = alarmUnset (slotOf k x)
      ((s.setCtl k x (clearStart ((s.chip k).ctl x))).setChan k x ((s.chip k).reloaded x c)) := by
    simp [takeUnderflows, stopOneShot, Chip.slotAfter, Chip.uAfter, alarmUnset, hshot]
  have hu : (s.chip k).uAfter x c = never := by simp [Chip.uAfter, hshot]
  unfold catchUpEffects
  rw [htake, Chip.reloaded, hu]
  unfold chanCatchUp
  dsimp only
  rw [if_pos (show _ ∧ _ from hdue), if_pos hshot]
  rfl

/-- Another due channel is rescheduled, if the cycle can be stored (43_chip_timers.md R163). -/
theorem chanCatchUp_of_continuous {k : Nat} {x : Channel} {c : Cycle} {s : State}
    (hdue : (s.chip k).UnderflowDue x c) (hshot : (s.chip k).oneShot x = false) :
    chanCatchUp k x c s =
      if (s.chip k).rescheduled x c < neverNat then .ok (catchUpEffects k x c s) else .error .clockOverflow := by
  unfold chanCatchUp
  dsimp only
  rw [if_pos (show _ ∧ _ from hdue), if_neg (by simp [hshot])]
  change (cycleStore ((s.chip k).rescheduled x c) >>= _) = _
  by_cases h : (s.chip k).rescheduled x c < neverNat
  case neg => rw [if_neg h, cycleStore_eq_error.mpr ⟨Nat.le_of_not_lt h, rfl⟩, error_bind]
  case pos =>
    rw [if_pos h]
    have htake : takeUnderflows k x c s = (s.setChan k x ((s.chip k).reloaded x c)).setAlarm (slotOf k x)
        ⟨true, BitVec.ofNat 32 ((s.chip k).rescheduled x c)⟩ := by
      simp [takeUnderflows, stopOneShot, Chip.slotAfter, Chip.uAfter, hshot]
    have hu : (s.chip k).uAfter x c = BitVec.ofNat 32 ((s.chip k).rescheduled x c) := by simp [Chip.uAfter, hshot]
    rw [cycleStore_ok h, ok_bind, alarmSet_ok (by rw [toNat_ofNat_cycle h]; exact h), ok_bind, toNat_ofNat_cycle h]
    unfold catchUpEffects
    rw [htake, Chip.reloaded, hu]
    rfl

/-- A due channel that is one-shot, or whose next underflow can be stored, is caught up (43_chip_timers.md R163). -/
theorem chanCatchUp_of_due {k : Nat} {x : Channel} {c : Cycle} {s : State} (hdue : (s.chip k).UnderflowDue x c)
    (hfits : (s.chip k).oneShot x = true ∨ (s.chip k).rescheduled x c < neverNat) :
    chanCatchUp k x c s = .ok (catchUpEffects k x c s) := by
  cases hshot : (s.chip k).oneShot x with
  | true => exact chanCatchUp_of_oneShot hdue hshot
  | false =>
    rw [chanCatchUp_of_continuous hdue hshot]
    exact if_pos (hfits.resolve_left (by simp [hshot]))

/-- All that `ChanCatchUp` can answer (43_chip_timers.md R163). -/
theorem chanCatchUp_cases {k : Nat} {x : Channel} {c : Cycle} {s s' : State} (h : chanCatchUp k x c s = .ok s') :
    (¬(s.chip k).UnderflowDue x c ∧ s' = s) ∨
    ((s.chip k).UnderflowDue x c ∧ ((s.chip k).oneShot x = true ∨ (s.chip k).rescheduled x c < neverNat) ∧
      s' = catchUpEffects k x c s) := by
  by_cases hdue : (s.chip k).UnderflowDue x c
  case neg =>
    rw [chanCatchUp_of_not_due hdue] at h
    cases h
    exact .inl ⟨hdue, rfl⟩
  case pos =>
    refine .inr ⟨hdue, ?_⟩
    cases hshot : (s.chip k).oneShot x with
    | true =>
      rw [chanCatchUp_of_oneShot hdue hshot] at h
      cases h
      exact ⟨.inl rfl, rfl⟩
    | false =>
      rw [chanCatchUp_of_continuous hdue hshot] at h
      split at h <;> cases h
      exact ⟨.inr ‹_›, rfl⟩

/-! ### The frame of a catch-up -/

section
variable {k : Nat} {spared : Byte} {x : Channel} {c : Cycle} {s s' : State}

/-- The last underflow taken is not after `c` (43_chip_timers.md R163). -/
theorem Chip.lastUnderflow_le {chip : Chip} (h : chip.UnderflowDue x c) :
    (chip.chan x).u.toNat + (chip.underflowsTo x c - 1) * chip.period x ≤ c.toNat := by
  have hu : (chip.chan x).u.toNat ≤ c.toNat := h.2
  unfold Chip.underflowsTo underflowCount
  split
  · simpa using hu
  · rw [Nat.add_sub_cancel_left]
    have := Nat.div_mul_le_self (c.toNat - (chip.chan x).u.toNat) (chip.period x)
    omega

/-- The next underflow after those taken at `c` comes after `c`, within a period (43_chip_timers.md R163). -/
theorem Chip.rescheduled_bounds {chip : Chip} (h : chip.UnderflowDue x c) (hshot : chip.oneShot x = false) :
    c.toNat < chip.rescheduled x c ∧ chip.rescheduled x c ≤ c.toNat + chip.period x := by
  have hu : (chip.chan x).u.toNat ≤ c.toNat := h.2
  have hpos : 0 < chip.period x := Nat.succ_pos _
  have hdiv := Nat.div_add_mod (c.toNat - (chip.chan x).u.toNat) (chip.period x)
  have hmod := Nat.mod_lt (c.toNat - (chip.chan x).u.toNat) hpos
  simp only [Chip.rescheduled, Chip.underflowsTo, underflowCount, hshot, Bool.false_eq_true, ↓reduceIte,
    Nat.add_mul, Nat.one_mul]
  rw [Nat.mul_comm] at hdiv
  omega

theorem Chip.period_le (chip : Chip) (x : Channel) : chip.period x ≤ 65536 := (chip.chan x).latch.isLt

theorem Reconciling.stopOneShot : Reconciling k c.toNat spared s (stopOneShot k x s) := by
  unfold Machine.stopOneShot
  split
  · exact Reconciling.clearStart x
  · exact Reconciling.refl k c.toNat spared s

theorem chan_stopOneShot (k : Nat) (x y : Channel) (s : State) :
    ((stopOneShot k x s).chip k).chan y = (s.chip k).chan y := by
  unfold stopOneShot State.setCtl
  split
  · rcases State.setChip_cases s k ((s.chip k).setCtl x (clearStart ((s.chip k).ctl x))) with ⟨-, h⟩ | h <;> rw [h]
    exact Chip.chan_setCtl _ x y _
  · rfl

theorem Chip.slotAfter_sound {chip : Chip} (h : chip.oneShot x = true ∨ chip.rescheduled x c < neverNat) :
    (chip.slotAfter x c).Sound := by
  unfold Chip.slotAfter Chip.uAfter
  cases hshot : chip.oneShot x with
  | true => exact Alarm.sound_disarmed
  | false =>
    have hlt := h.resolve_left (by simp [hshot])
    exact Alarm.sound_armed (by simpa [toNat_ofNat_cycle hlt] using hlt)

theorem Reconciling.takeUnderflows
    (h : (s.chip k).oneShot x = true ∨ (s.chip k).rescheduled x c < neverNat) :
    Reconciling k c.toNat spared s (takeUnderflows k x c s) := by
  have hstop : Reconciling k c.toNat spared s (Machine.stopOneShot k x s) := Reconciling.stopOneShot
  have hreload : Reconciling k c.toNat spared (Machine.stopOneShot k x s)
      ((Machine.stopOneShot k x s).setChan k x ((s.chip k).reloaded x c)) :=
    Reconciling.setChan x (by rw [chan_stopOneShot]; rfl)
  exact (hstop.trans hreload).trans (Reconciling.setAlarm x (Chip.slotAfter_sound h))

theorem Reconciling.chanCatchUp (h : chanCatchUp k x c s = .ok s') : Reconciling k c.toNat 0xF4 s s' := by
  rcases chanCatchUp_cases h with ⟨-, rfl⟩ | ⟨hdue, hfits, rfl⟩
  · exact Reconciling.refl k c.toNat _ _
  · exact (Reconciling.takeUnderflows hfits).trans
      (CascadeWork.underflowEffects (Chip.lastUnderflow_le hdue)).toReconciling

/-- Reconciliation changes of the chip only the cached fields, and sets no flag but the channels' and the shift
register's (20_memory.md R67; 43_chip_timers.md R166). -/
theorem Reconciling.updateTo (h : updateTo k c s = .ok s') : Reconciling k c.toNat 0xF4 s s' := by
  obtain ⟨-, s₁, s₂, hA, hB, rfl⟩ := updateTo_eq_ok.mp h
  exact ((Reconciling.chanCatchUp hA).trans (Reconciling.chanCatchUp hB)).trans (Reconciling.storeLive c)

end

end Sys2Proof.Machine
end

section
/-! What a callback and a whole dispatch leave alone (41_alarm_scheduler.md R128, R129): the relation `DispatchKeeps`
holds of every callback, and so of the loop. -/

namespace Sys2Proof.Machine

/-! ### A tick of the time of day -/

/-- The clock of chip `k` counts a tenth, before the compare (45_chip_tod.md R243). -/
def tickClock (k : Nat) (s : State) : State := s.setChip k { s.chip k with tod := todInc (s.chip k).tod }

/-- All that the clock's part of a tick can do: nothing if the clock is frozen, otherwise the increment, and the alarm
flag if the compare meets (45_chip_tod.md R243, R244). -/
theorem todAdvance_cases (k : Nat) (T : Cycle) (s : State) :
    ((s.chip k).todStopped = true ∧ todAdvance k T s = s) ∨
    ((s.chip k).todStopped = false ∧ todAdvance k T s = tickClock k s) ∨
    ((s.chip k).todStopped = false ∧ todAdvance k T s = setFlag k flagAlarm T (tickClock k s)) := by
  unfold todAdvance
  split
  case isTrue hstop => exact .inl ⟨hstop, rfl⟩
  case isFalse hstop =>
    refine .inr ?_
    have hrun : (s.chip k).todStopped = false := by simpa using hstop
    dsimp only
    split
    · exact .inr ⟨hrun, rfl⟩
    · exact .inl ⟨hrun, rfl⟩

/-- What a tick leaves of a chip: all but the running clock and the alarm flag (45_chip_tod.md R243). -/
structure ChipTicked (c c' : Chip) : Prop where
  rest : c' = { c with tod := c'.tod, flags := c'.flags }
  flags : c'.flags &&& 0xFB = c.flags &&& 0xFB
  frozen : c.todStopped = true → c'.tod = c.tod

theorem ChipTicked.refl (c : Chip) : ChipTicked c c := ⟨rfl, rfl, fun _ => rfl⟩

theorem ChipTicked.trans {a b c : Chip} (h : ChipTicked a b) (g : ChipTicked b c) : ChipTicked a c where
  rest := by rw [g.rest, h.rest]
  flags := g.flags.trans h.flags
  frozen := fun hs => by
    have hb : b.todStopped = true := by rw [h.rest]; exact hs
    rw [g.frozen hb, h.frozen hs]

theorem ChipTicked.kept {c c' : Chip} (h : ChipTicked c c') : ChipKept c c' := by
  rw [h.rest]
  constructor <;> rfl

theorem chipTicked_tickClock {k : Nat} {s : State} (h : (s.chip k).todStopped = false) :
    ChipTicked (s.chip k) ((tickClock k s).chip k) := by
  unfold tickClock
  rcases State.setChip_cases s k { s.chip k with tod := todInc (s.chip k).tod } with ⟨-, h'⟩ | h' <;> rw [h']
  · exact ⟨rfl, rfl, fun hs => absurd hs (by simp [h])⟩
  · exact ChipTicked.refl _

theorem chipTicked_setFlag_alarm (k : Nat) (T : Cycle) (s : State) :
    ChipTicked (s.chip k) ((setFlag k flagAlarm T s).chip k) := by
  rcases chip_setFlag_cases k flagAlarm T s with h | h <;> rw [h]
  · exact ⟨rfl, and_or_eq_of_and_eq_zero rfl, fun _ => rfl⟩
  · exact ChipTicked.refl _

theorem chipTicked_todAdvance (k : Nat) (T : Cycle) (s : State) :
    ChipTicked (s.chip k) ((todAdvance k T s).chip k) := by
  rcases todAdvance_cases k T s with ⟨-, h⟩ | ⟨hrun, h⟩ | ⟨hrun, h⟩ <;> rw [h]
  · exact ChipTicked.refl _
  · exact chipTicked_tickClock hrun
  · exact (chipTicked_tickClock hrun).trans (chipTicked_setFlag_alarm k T _)

/-- All that a tick can answer: it is armed again a period later (45_chip_tod.md R243). -/
theorem todTick_eq_ok {k : Nat} {T : Cycle} {s s' : State} :
    todTick k T s = .ok s' ↔ T.toNat + s.cfg.todPeriod < neverNat ∧
      s' = (todAdvance k T s).setAlarm (todSlot k) ⟨true, BitVec.ofNat 32 (T.toNat + s.cfg.todPeriod)⟩ := by
  unfold todTick
  dsimp only
  rw [alarmSet_eq_ok, (OnlyChip.todAdvance k T s).cfg]

theorem chipTicked_todTick {k : Nat} {T : Cycle} {s s' : State} (h : todTick k T s = .ok s') :
    ChipTicked (s.chip k) (s'.chip k) := by
  obtain ⟨-, rfl⟩ := todTick_eq_ok.mp h
  exact chipTicked_todAdvance k T s

/-! ### The frame of a dispatch -/

/-- What a dispatch on the way from `s` to `s'` has left alone, the external slots that were due fired or not yet
(41_alarm_scheduler.md R128, R129). -/
structure DispatchKeeps (s s' : State) : Prop where
  cfg : s'.cfg = s.cfg
  clk : s'.clk = s.clk
  cpuMasked : s'.cpuMasked = s.cpuMasked
  fault : s'.fault = s.fault
  port : s'.port = s.port
  payloadIn : s'.payloadIn = s.payloadIn
  status : s'.status = s.status
  resp : s'.resp = s.resp
  payloadOut : s'.payloadOut = s.payloadOut
  draws : s'.draws = s.draws
  alarms_length : s'.alarms.length = s.alarms.length
  src_length : s'.src.length = s.src.length
  chips_length : s'.chips.length = s.chips.length
  source : ∀ m, s.cfg.nchip ≤ m → s'.source m = s.source m
  alarm : ∀ a, 3 * s.cfg.nchip ≤ a →
    s'.alarm a = s.alarm a ∨ ((s.alarm a).due s.clk = true ∧ s'.alarm a = ⟨false, never⟩)
  chip : ∀ k, ChipKept (s.chip k) (s'.chip k)
  frozen : ∀ k, (s.chip k).todStopped = true → (s'.chip k).tod = (s.chip k).tod

theorem DispatchKeeps.refl (s : State) : DispatchKeeps s s := by
  constructor <;> intros <;> first | rfl | exact .inl rfl | exact ChipKept.refl _

theorem DispatchKeeps.trans {s s' s'' : State} (h : DispatchKeeps s s') (g : DispatchKeeps s' s'') :
    DispatchKeeps s s'' where
  cfg := g.cfg.trans h.cfg
  clk := g.clk.trans h.clk
  cpuMasked := g.cpuMasked.trans h.cpuMasked
  fault := g.fault.trans h.fault
  port := g.port.trans h.port
  payloadIn := g.payloadIn.trans h.payloadIn
  status := g.status.trans h.status
  resp := g.resp.trans h.resp
  payloadOut := g.payloadOut.trans h.payloadOut
  draws := g.draws.trans h.draws
  alarms_length := g.alarms_length.trans h.alarms_length
  src_length := g.src_length.trans h.src_length
  chips_length := g.chips_length.trans h.chips_length
  source := fun m hm => (g.source m (by rwa [h.cfg])).trans (h.source m hm)
  alarm := fun a ha => by
    rcases g.alarm a (by rwa [h.cfg]) with h₂ | ⟨hdue, h₂⟩ <;> rcases h.alarm a ha with h₁ | ⟨hdue₁, h₁⟩
    · exact .inl (h₂.trans h₁)
    · exact .inr ⟨hdue₁, h₂.trans h₁⟩
    · rw [h₁, h.clk] at hdue
      exact .inr ⟨hdue, h₂⟩
    · exact .inr ⟨hdue₁, h₂⟩
  chip := fun k => (h.chip k).trans (g.chip k)
  frozen := fun k hk => by
    rw [g.frozen k (by rw [(h.chip k).todStopped]; exact hk), h.frozen k hk]

/-- Work on a chip that keeps what a callback keeps of that chip is within the frame of a dispatch. -/
theorem OnlyChip.dispatchKeeps {k : Nat} {s s' : State} (h : OnlyChip k s s') (hk : k < s.cfg.nchip)
    (hdraws : s'.draws = s.draws) (hkept : ChipKept (s.chip k) (s'.chip k))
    (hfrozen : (s.chip k).todStopped = true → (s'.chip k).tod = (s.chip k).tod) : DispatchKeeps s s' where
  cfg := h.cfg
  clk := h.clk
  cpuMasked := h.cpuMasked
  fault := h.fault
  port := h.port
  payloadIn := h.payloadIn
  status := h.status
  resp := h.resp
  payloadOut := h.payloadOut
  draws := hdraws
  alarms_length := h.alarms_length
  src_length := h.src_length
  chips_length := h.chips_length
  source := fun m hm => h.source m (by omega)
  alarm := fun a ha =>
    .inl (h.alarm a (by simp only [slotOf]; omega) (by simp only [slotOf]; omega) (by simp only [todSlot]; omega))
  chip := fun j => by
    by_cases hj : j = k
    · exact hj ▸ hkept
    · rw [h.chip j hj]
      exact ChipKept.refl _
  frozen := fun j hstop => by
    by_cases hj : j = k
    · subst hj
      exact hfrozen hstop
    · rw [h.chip j hj]

/-- A due external slot fires: it is disarmed, and its event emitted (41_alarm_scheduler.md R129). -/
theorem dispatchKeeps_emit_alarmUnset {a overrun : Nat} {s : State} (hdue : (s.alarm a).due s.clk = true) :
    DispatchKeeps s (emit (.fired a overrun) (alarmUnset a s)) :=
  { DispatchKeeps.refl s with
    alarms_length := by simp [alarmUnset, State.setAlarm]
    alarm := fun b _ => by
      rw [State.alarm_emit, alarm_alarmUnset]
      split
      case isTrue h => exact .inr ⟨h ▸ hdue, rfl⟩
      case isFalse => exact .inl rfl }

theorem DispatchKeeps.fire {a overrun : Nat} {s s' : State} (hdue : (s.alarm a).due s.clk = true)
    (h : fire a overrun s = .ok s') : DispatchKeeps s s' := by
  have hdraws := fire_draws h
  by_cases ha : a < 3 * s.cfg.nchip
  case neg =>
    rw [fire_external ha] at h
    cases h
    exact dispatchKeeps_emit_alarmUnset hdue
  case pos =>
    have hframe := fire_onlyChip ha h
    have hk : a / 3 < s.cfg.nchip := by omega
    unfold Machine.fire at h
    rw [if_pos ha] at h
    split at h
    case isTrue =>
      have hticked := chipTicked_todTick h
      exact hframe.dispatchKeeps hk hdraws hticked.kept hticked.frozen
    case isFalse =>
      have hwork := Reconciling.updateTo h
      exact hframe.dispatchKeeps hk hdraws hwork.kept fun _ => hwork.tod

/-- A dispatch stays within its frame, and leaves no slot due (41_alarm_scheduler.md R128). -/
theorem DispatchKeeps.dispatch {s s' : State} {n : Nat} (h : dispatch s = .ok (s', n)) :
    DispatchKeeps s s' ∧ s'.firstDue = none :=
  dispatchLoop_keeps (P := DispatchKeeps s)
    (fun _ _ _ hs hdue h => hs.trans (DispatchKeeps.fire (State.firstDue_eq_some.mp hdue).2.1 h))
    (DispatchKeeps.refl s) h

/-- Where no slot is due none is, be it in the table or not (41_alarm_scheduler.md R128). -/
theorem State.NoneDue.alarm {s : State} (h : s.NoneDue) (a : Nat) : (s.alarm a).due s.clk = false := by
  by_cases ha : a < s.alarms.length
  · have hget : s.alarm a = s.alarms[a] := by simp [State.alarm, List.getD_eq_getElem?_getD, ha]
    rw [hget]
    exact h _ (List.getElem_mem ha)
  · simp [State.alarm, List.getD_eq_getElem?_getD, ha, Alarm.absent, Alarm.due]

/-- Settles O25: the frame of every callback, and what the end of the loop says of the external slots. -/
theorem dispatchFrame : Obligations.DispatchFrame := by
  unfold Obligations.DispatchFrame
  intro s s₁ n h
  obtain ⟨hkeeps, hend⟩ := DispatchKeeps.dispatch h
  have hnone := State.firstDue_eq_none.mp hend
  refine ⟨hkeeps.cfg, hkeeps.clk, hkeeps.cpuMasked, hkeeps.fault, hkeeps.port, hkeeps.payloadIn, hkeeps.status,
    hkeeps.resp, hkeeps.payloadOut, hkeeps.draws, hkeeps.alarms_length, hkeeps.src_length, hkeeps.chips_length,
    hkeeps.source, fun a ha hdue => ?_, fun a ha hdue => ?_, hkeeps.chip, hkeeps.frozen⟩
  · rcases hkeeps.alarm a ha with h | ⟨h, -⟩
    · exact h
    · exact absurd h (by simp [hdue])
  · rcases hkeeps.alarm a ha with h | ⟨-, h⟩
    · have hstill := hnone.alarm a
      rw [h, hkeeps.clk, hdue] at hstill
      cases hstill
    · exact h

end Sys2Proof.Machine
end

section
/-! What a reconciliation does to each channel (43_chip_timers.md R161, R163, R166): a channel that counts cycles is
caught up between work that leaves it alone, then its live counter is stored. -/

namespace Sys2Proof.Machine

/-! ### What of a chip the account of a channel depends on -/

section
variable {c c' : Chip} {x : Channel}

theorem Chip.chanState_congr (h : c'.ctl x = c.ctl x) : c'.chanState x = c.chanState x := by
  rw [Chip.chanState, h, Chip.chanState]

theorem Chip.oneShot_congr (h : c'.ctl x = c.ctl x) : c'.oneShot x = c.oneShot x := by
  rw [Chip.oneShot, h, Chip.oneShot]

theorem Chip.underflowDue_congr (hchan : c'.chan x = c.chan x) (hctl : c'.ctl x = c.ctl x) (cycle : Cycle) :
    c'.UnderflowDue x cycle ↔ c.UnderflowDue x cycle := by
  rw [Chip.UnderflowDue, Chip.chanState_congr hctl, hchan, Chip.UnderflowDue]

theorem Chip.underflowsTo_congr (hchan : c'.chan x = c.chan x) (hctl : c'.ctl x = c.ctl x) (cycle : Cycle) :
    c'.underflowsTo x cycle = c.underflowsTo x cycle := by
  simp only [Chip.underflowsTo, Chip.period, Chip.oneShot_congr hctl, hchan]

theorem Chip.uAfter_congr (hchan : c'.chan x = c.chan x) (hctl : c'.ctl x = c.ctl x) (cycle : Cycle) :
    c'.uAfter x cycle = c.uAfter x cycle := by
  simp only [Chip.uAfter, Chip.rescheduled, Chip.period, Chip.underflowsTo_congr hchan hctl, Chip.oneShot_congr hctl,
    hchan]

theorem Chip.reloaded_congr (hchan : c'.chan x = c.chan x) (hctl : c'.ctl x = c.ctl x) (cycle : Cycle) :
    c'.reloaded x cycle = c.reloaded x cycle := by
  rw [Chip.reloaded, hchan, Chip.uAfter_congr hchan hctl, Chip.underflowsTo_congr hchan hctl, Chip.reloaded]

theorem Chip.slotAfter_congr (hchan : c'.chan x = c.chan x) (hctl : c'.ctl x = c.ctl x) (cycle : Cycle) :
    c'.slotAfter x cycle = c.slotAfter x cycle := by
  rw [Chip.slotAfter, Chip.uAfter_congr hchan hctl, Chip.oneShot_congr hctl, Chip.slotAfter]

theorem Chip.live_congr (hchan : c'.chan x = c.chan x) (hctl : c'.ctl x = c.ctl x) (cycle : Cycle) :
    c'.live x cycle = c.live x cycle := by
  simp only [Chip.live, Chip.chanState_congr hctl, hchan]

theorem Chip.live_of_running {cycle : Cycle} (h : c.chanState x = .running) :
    c.live x cycle = BitVec.ofNat 16 (min (c.chan x).cnt.toNat ((c.chan x).u.toNat - cycle.toNat)) := if_pos h

theorem Chip.live_of_idle {cycle : Cycle} (h : c.chanState x ≠ .running) : c.live x cycle = (c.chan x).cnt := if_neg h

theorem Chip.setCtl_ctl_self (c : Chip) (x : Channel) : c.setCtl x (c.ctl x) = c := by cases x <;> rfl

end

/-- The control register of a channel after its underflows: a one-shot channel has stopped (43_chip_timers.md R163). -/
def Chip.ctlAfter (chip : Chip) (x : Channel) : Byte :=
  if chip.oneShot x then clearStart (chip.ctl x) else chip.ctl x

theorem Chip.ctlAfter_congr {c c' : Chip} {x : Channel} (h : c'.ctl x = c.ctl x) : c'.ctlAfter x = c.ctlAfter x := by
  rw [Chip.ctlAfter, Chip.oneShot_congr h, h, Chip.ctlAfter]

/-! ### The chip after it has taken underflows -/

section
variable {k : Nat} {x y : Channel} {c : Cycle} {s s' s'' : State}

theorem chip_stopOneShot (hk : k < s.chips.length) :
    (stopOneShot k x s).chip k = (s.chip k).setCtl x ((s.chip k).ctlAfter x) := by
  unfold stopOneShot Chip.ctlAfter
  split
  · exact State.chip_setChip_self s _ hk
  · exact (Chip.setCtl_ctl_self _ x).symm

theorem chips_length_stopOneShot : (stopOneShot k x s).chips.length = s.chips.length :=
  (OnlyChip.stopOneShot k x s).chips_length

theorem chip_takeUnderflows (hk : k < s.chips.length) :
    (takeUnderflows k x c s).chip k =
      ((s.chip k).setCtl x ((s.chip k).ctlAfter x)).setChan x ((s.chip k).reloaded x c) := by
  unfold takeUnderflows State.setChan
  rw [State.chip_setAlarm, State.chip_setChip_self _ _ (by rwa [chips_length_stopOneShot]), chip_stopOneShot hk]

theorem alarms_stopOneShot : (stopOneShot k x s).alarms = s.alarms := by
  unfold stopOneShot
  split <;> rfl

theorem alarm_takeUnderflows_self (hslot : slotOf k x < s.alarms.length) :
    (takeUnderflows k x c s).alarm (slotOf k x) = (s.chip k).slotAfter x c :=
  State.alarm_setAlarm_self _ _ (by rwa [State.setChan_alarms, alarms_stopOneShot])

theorem alarm_takeUnderflows_ne {a : Nat} (ha : a ≠ slotOf k x) : (takeUnderflows k x c s).alarm a = s.alarm a := by
  unfold takeUnderflows
  rw [State.alarm_setAlarm_ne _ _ ha, State.alarm_setChan, State.alarm_eq_of_alarms_eq alarms_stopOneShot]

/-! ### Work that leaves a channel alone -/

/-- Work of a reconciliation at `c` that leaves channel `x`, its flag and its slot alone. -/
structure ApartFrom (k : Nat) (x : Channel) (c : Cycle) (s s' : State) : Prop
    extends Reconciling k c.toNat (flagOf x) s s' where
  chan : (s'.chip k).chan x = (s.chip k).chan x
  ctl : (s'.chip k).ctl x = (s.chip k).ctl x
  alarm : s'.alarm (slotOf k x) = s.alarm (slotOf k x)

theorem ApartFrom.refl (k : Nat) (x : Channel) (c : Cycle) (s : State) : ApartFrom k x c s s :=
  ⟨Reconciling.refl k c.toNat _ s, rfl, rfl, rfl⟩

theorem ApartFrom.trans (h : ApartFrom k x c s s') (g : ApartFrom k x c s' s'') : ApartFrom k x c s s'' :=
  ⟨h.toReconciling.trans g.toReconciling, g.chan.trans h.chan, g.ctl.trans h.ctl, g.alarm.trans h.alarm⟩

theorem FlagWork.apartFrom (h : FlagWork k c.toNat (flagOf x) s s') : ApartFrom k x c s s' :=
  ⟨h.toReconciling, h.chan x, h.ctl x, State.alarm_eq_of_alarms_eq h.alarms _⟩

/-- The underflows that the other channel takes leave a channel alone (43_chip_timers.md R163). -/
theorem ApartFrom.takeUnderflows (hyx : y ≠ x) (hk : k < s.chips.length)
    (hfits : (s.chip k).oneShot x = true ∨ (s.chip k).rescheduled x c < neverNat) :
    ApartFrom k y c s (takeUnderflows k x c s) where
  toReconciling := Reconciling.takeUnderflows hfits
  chan := by rw [chip_takeUnderflows hk, Chip.chan_setChan_ne _ _ hyx, Chip.chan_setCtl]
  ctl := by rw [chip_takeUnderflows hk, Chip.ctl_setChan, Chip.ctl_setCtl_ne _ _ hyx]
  alarm := alarm_takeUnderflows_ne fun h => hyx (slotOf_inj h).2

/-- Channel B counts the underflows of channel A (10_state.md R37). -/
abbrev Chip.Cascaded (chip : Chip) (x : Channel) : Prop := x = .B ∧ chip.chanState x = .runningCascade

/-- Catching up one channel leaves the other alone, unless it is cascaded (43_chip_timers.md R163, R164). -/
theorem ApartFrom.chanCatchUp (hyx : y ≠ x) (hk : k < s.chips.length) (hcasc : ¬(s.chip k).Cascaded y)
    (h : chanCatchUp k x c s = .ok s') : ApartFrom k y c s s' := by
  rcases chanCatchUp_cases h with ⟨-, rfl⟩ | ⟨hdue, hfits, rfl⟩
  case inl => exact ApartFrom.refl k y c _
  case inr =>
    have htake : ApartFrom k y c s (Machine.takeUnderflows k x c s) := ApartFrom.takeUnderflows hyx hk hfits
    have hlast := Chip.lastUnderflow_le hdue
    refine htake.trans (FlagWork.apartFrom ?_)
    cases x with
    | A =>
      cases y with
      | A => exact absurd rfl hyx
      | B =>
        refine (FlagWork.underflowEffectsA hlast ?_).spare rfl
        rw [Chip.chanState_congr htake.ctl]
        exact fun h => hcasc ⟨rfl, h⟩
    | B =>
      cases y with
      | A => exact FlagWork.underflowEffectsB rfl hdue.2
      | B => exact absurd rfl hyx

/-- A reconciliation catches each channel up that is not cascaded, before and after that leaving it alone, and stores
the live values (43_chip_timers.md R166). -/
theorem updateTo_channel (hk : k < s.chips.length) (hcasc : ¬(s.chip k).Cascaded x) (h : updateTo k c s = .ok s'') :
    ∃ u v w, ApartFrom k x c s u ∧ chanCatchUp k x c u = .ok v ∧ ApartFrom k x c v w ∧ s'' = storeLive k c w := by
  obtain ⟨-, s₁, s₂, hA, hB, rfl⟩ := updateTo_eq_ok.mp h
  cases x with
  | A =>
    have hk₁ : k < s₁.chips.length := by rwa [(OnlyChip.chanCatchUp hA).chips_length]
    exact ⟨s, s₁, s₂, ApartFrom.refl k .A c s, hA, ApartFrom.chanCatchUp (by decide) hk₁ (by simp) hB, rfl⟩
  | B =>
    exact ⟨s₁, s₂, s₂, ApartFrom.chanCatchUp (by decide) hk hcasc hA, hB, ApartFrom.refl k .B c s₂, rfl⟩

/-! ### A channel that is caught up -/

/-- The effects of a channel's own underflows leave that channel, which runs, alone (43_chip_timers.md R164). -/
theorem catchUpEffects_channel (hdue : (s.chip k).UnderflowDue x c) (hk : k < s.chips.length)
    (hslot : slotOf k x < s.alarms.length) :
    ((catchUpEffects k x c s).chip k).chan x = (s.chip k).reloaded x c ∧
      ((catchUpEffects k x c s).chip k).ctl x = (s.chip k).ctlAfter x ∧
      (catchUpEffects k x c s).alarm (slotOf k x) = (s.chip k).slotAfter x c := by
  have hwork : ((catchUpEffects k x c s).chip k).chan x = ((takeUnderflows k x c s).chip k).chan x ∧
      ((catchUpEffects k x c s).chip k).ctl x = ((takeUnderflows k x c s).chip k).ctl x ∧
      (catchUpEffects k x c s).alarms = (takeUnderflows k x c s).alarms := by
    cases x with
    | A =>
      have h := CascadeWork.underflowEffects (k := k) (x := .A) (s := takeUnderflows k .A c s)
        (Chip.lastUnderflow_le hdue)
      exact ⟨h.chanA, h.cra, h.alarms⟩
    | B =>
      have h : FlagWork k c.toNat 0xF4 (takeUnderflows k .B c s) (catchUpEffects k .B c s) :=
        FlagWork.underflowEffectsB rfl hdue.2
      exact ⟨h.chan .B, h.ctl .B, h.alarms⟩
  obtain ⟨hchan, hctl, halarms⟩ := hwork
  rw [hchan, hctl, State.alarm_eq_of_alarms_eq halarms, chip_takeUnderflows hk]
  exact ⟨Chip.chan_setChan _ x _, by rw [Chip.ctl_setChan, Chip.ctl_setCtl], alarm_takeUnderflows_self hslot⟩

/-- The chip as the first underflow of channel `x` sets its flag (43_chip_timers.md R164). -/
def flagUnderflow (k : Nat) (x : Channel) (c : Cycle) (s : State) : State :=
  setFlag k (flagOf x) ((s.chip k).chan x).u (takeUnderflows k x c s)

/-- The flag is the first of the effects (43_chip_timers.md R164). -/
theorem Reconciling.after_flagUnderflow (hdue : (s.chip k).UnderflowDue x c) :
    Reconciling k c.toNat 0xF4 (flagUnderflow k x c s) (catchUpEffects k x c s) := by
  have hlast := Chip.lastUnderflow_le hdue
  have hcycle : BitVec.ofNat 32 ((s.chip k).chan x).u.toNat = ((s.chip k).chan x).u := by simp
  unfold flagUnderflow catchUpEffects
  cases x with
  | A =>
    unfold underflowEffects underflowEffectsA
    rw [hcycle]
    have hshift (s₁ : State) : FlagWork k c.toNat 0xF4 s₁ (clockShift k ((s.chip k).underflowsTo .A c)
        ((s.chip k).chan .A).u.toNat ((s.chip k).period .A) s₁) := FlagWork.clockShift rfl hlast
    exact (hshift _).toReconciling.trans (CascadeWork.cascade rfl hlast).toReconciling
  | B =>
    unfold underflowEffects underflowEffectsB
    rw [hcycle]
    exact Reconciling.refl k _ _ _

/-! ### Storing the live values -/

theorem chan_storeLive (hk : k < s.chips.length) :
    ((storeLive k c s).chip k).chan x = { (s.chip k).chan x with cnt := (s.chip k).live x c } := by
  unfold storeLive
  dsimp only
  rw [State.chip_setChip_self s _ hk]
  cases x <;> rfl

theorem ctl_storeLive (hk : k < s.chips.length) : ((storeLive k c s).chip k).ctl x = (s.chip k).ctl x := by
  unfold storeLive
  dsimp only
  rw [State.chip_setChip_self s _ hk]
  cases x <;> rfl

theorem rc_storeLive (hk : k < s.chips.length) : ((storeLive k c s).chip k).rc = c := by
  unfold storeLive
  dsimp only
  rw [State.chip_setChip_self s _ hk]

@[simp] theorem alarm_storeLive (a : Nat) : (storeLive k c s).alarm a = s.alarm a := rfl

/-! ### What a reconciliation comes to for each channel -/

theorem Chip.UnderflowDue.not_cascaded {chip : Chip} (h : chip.UnderflowDue x c) : ¬chip.Cascaded x :=
  fun hcasc => nomatch hcasc.2.symm.trans h.1

/-- A due channel is reloaded and its live counter stored (43_chip_timers.md R161, R163). -/
theorem updateTo_due (hk : k < s.chips.length) (hslot : slotOf k x < s.alarms.length)
    (hdue : (s.chip k).UnderflowDue x c) (h : updateTo k c s = .ok s') :
    (s'.chip k).chan x = { (s.chip k).reloaded x c with
      cnt := if (s.chip k).oneShot x then ((s.chip k).chan x).latch
        else BitVec.ofNat 16 (min ((s.chip k).chan x).latch.toNat (((s.chip k).uAfter x c).toNat - c.toNat)) } ∧
    (s'.chip k).ctl x = (s.chip k).ctlAfter x ∧ s'.alarm (slotOf k x) = (s.chip k).slotAfter x c := by
  obtain ⟨u, v, w, hu, hcatch, hw, rfl⟩ := updateTo_channel hk hdue.not_cascaded h
  have hdueu := (Chip.underflowDue_congr hu.chan hu.ctl c).mpr hdue
  have hku : k < u.chips.length := by rwa [hu.only.chips_length]
  rcases chanCatchUp_cases hcatch with ⟨hnot, -⟩ | ⟨-, -, rfl⟩
  case inl => exact absurd hdueu hnot
  obtain ⟨hchan, hctl, halarm⟩ := catchUpEffects_channel hdueu hku (by rwa [hu.only.alarms_length])
  rw [← hw.chan, Chip.reloaded_congr hu.chan hu.ctl] at hchan
  rw [← hw.ctl, Chip.ctlAfter_congr hu.ctl] at hctl
  rw [← hw.alarm, Chip.slotAfter_congr hu.chan hu.ctl] at halarm
  have hkw : k < w.chips.length := by
    rwa [hw.only.chips_length, (OnlyChip.chanCatchUp hcatch).chips_length]
  refine ⟨?_, by rw [ctl_storeLive hkw, hctl], by rw [alarm_storeLive, halarm]⟩
  rw [chan_storeLive hkw]
  cases hshot : (s.chip k).oneShot x with
  | true =>
    have hstopped : (w.chip k).chanState x ≠ .running := by
      rw [Chip.chanState, hctl, Chip.ctlAfter, hshot, if_pos rfl, ctlState_clearStart]
      exact nofun
    rw [Chip.live_of_idle hstopped, hchan]
    rfl
  | false =>
    have hrunning : (w.chip k).chanState x = .running := by
      rw [Chip.chanState, hctl, Chip.ctlAfter, hshot]
      exact hdue.1
    rw [Chip.live_of_running hrunning, hchan]
    rfl

/-- A channel that is not due has its live counter stored, and is otherwise left alone, unless it is cascaded
(43_chip_timers.md R161, R166). -/
theorem updateTo_not_due (hk : k < s.chips.length) (hcasc : ¬(s.chip k).Cascaded x)
    (hdue : ¬(s.chip k).UnderflowDue x c) (h : updateTo k c s = .ok s') :
    (s'.chip k).chan x = { (s.chip k).chan x with cnt := (s.chip k).live x c } ∧
    (s'.chip k).ctl x = (s.chip k).ctl x ∧ s'.alarm (slotOf k x) = s.alarm (slotOf k x) ∧
    (s'.chip k).flags &&& flagOf x = (s.chip k).flags &&& flagOf x := by
  obtain ⟨u, v, w, hu, hcatch, hw, rfl⟩ := updateTo_channel hk hcasc h
  rw [chanCatchUp_of_not_due (mt (Chip.underflowDue_congr hu.chan hu.ctl c).mp hdue)] at hcatch
  cases hcatch
  have hapart := hu.trans hw
  have hkw : k < w.chips.length := by rwa [hapart.only.chips_length]
  have hstore : Reconciling k c.toNat (flagOf x) w (storeLive k c w) := Reconciling.storeLive c
  exact ⟨by rw [chan_storeLive hkw, Chip.live_congr hapart.chan hapart.ctl, hapart.chan],
    by rw [ctl_storeLive hkw, hapart.ctl], hapart.alarm, hstore.flags_spared.trans hapart.flags_spared⟩

/-- A cascaded channel B stays one that counts no cycles; its next underflow and its slot are left alone
(43_chip_timers.md R164, R165). -/
theorem updateTo_cascaded (hk : k < s.chips.length) (hcasc : (s.chip k).chanState .B = .runningCascade)
    (h : updateTo k c s = .ok s') :
    (s'.chip k).chanState .B ≠ .running ∧ (s'.chip k).chanB.u = (s.chip k).chanB.u ∧
      s'.alarm (slotOf k .B) = s.alarm (slotOf k .B) := by
  obtain ⟨-, s₁, s₂, hA, hB, rfl⟩ := updateTo_eq_ok.mp h
  have hfirst : ((s₁.chip k).crb = (s.chip k).crb ∨ (s₁.chip k).crb = clearStart (s.chip k).crb) ∧
      (s₁.chip k).chanB.u = (s.chip k).chanB.u ∧ s₁.alarm (slotOf k .B) = s.alarm (slotOf k .B) := by
    rcases chanCatchUp_cases hA with ⟨-, rfl⟩ | ⟨hdue, hfits, rfl⟩
    case inl => exact ⟨.inl rfl, rfl, rfl⟩
    case inr =>
      have htake : ApartFrom k .B c s (Machine.takeUnderflows k .A c s) :=
        ApartFrom.takeUnderflows (by decide) hk hfits
      have hcrb : (Machine.takeUnderflows k .A c s |>.chip k).crb = (s.chip k).crb := htake.ctl
      have hwork := CascadeWork.underflowEffects (k := k) (x := .A) (s := takeUnderflows k .A c s)
        (Chip.lastUnderflow_le hdue)
      refine ⟨?_, hwork.uB.trans (congrArg Chan.u htake.chan),
        (State.alarm_eq_of_alarms_eq hwork.alarms _).trans htake.alarm⟩
      rw [← hcrb]
      exact hwork.crb
  obtain ⟨hcrb, hu, halarm⟩ := hfirst
  have hidle : (s₁.chip k).chanState .B ≠ .running := by
    intro hrun
    rcases hcrb with hsame | hclear
    · have hstate : (s₁.chip k).chanState .B = (s.chip k).chanState .B := Chip.chanState_congr hsame
      exact nomatch hcasc.symm.trans (hstate.symm.trans hrun)
    · have hstopped : (s₁.chip k).chanState .B = .stopped := by
        change ctlState .B (s₁.chip k).crb = .stopped
        rw [hclear, ctlState_clearStart]
      exact nomatch hstopped.symm.trans hrun
  rw [chanCatchUp_of_not_due fun hdue => hidle hdue.1] at hB
  cases hB
  have hk₁ : k < s₁.chips.length := by rwa [(OnlyChip.chanCatchUp hA).chips_length]
  have hchan : ((storeLive k c s₁).chip k).chan .B = { (s₁.chip k).chan .B with cnt := (s₁.chip k).live .B c } :=
    chan_storeLive hk₁
  refine ⟨?_, (congrArg Chan.u hchan).trans hu, halarm⟩
  rwa [Chip.chanState_congr (ctl_storeLive hk₁)]

/-! ### Reconciliation succeeds -/

/-- A channel is caught up at every cycle that leaves room for a period below `NEVER` (43_chip_timers.md R163). -/
theorem chanCatchUp_total (k : Nat) (x : Channel) (s : State) (h : c.toNat + 65536 < neverNat) :
    ∃ s', chanCatchUp k x c s = .ok s' := by
  by_cases hdue : (s.chip k).UnderflowDue x c
  case neg => exact ⟨s, chanCatchUp_of_not_due hdue⟩
  case pos =>
    refine ⟨_, chanCatchUp_of_due hdue ?_⟩
    cases hshot : (s.chip k).oneShot x with
    | true => exact .inl rfl
    | false =>
      have hle := (Chip.rescheduled_bounds hdue hshot).2
      have hperiod := (s.chip k).period_le x
      exact .inr (by omega)

theorem updateTo_total (hrc : (s.chip k).rc ≤ c) (h : c.toNat + 65536 < neverNat) : ∃ s', updateTo k c s = .ok s' := by
  obtain ⟨s₁, hA⟩ := chanCatchUp_total k .A s h
  obtain ⟨s₂, hB⟩ := chanCatchUp_total k .B s₁ h
  exact ⟨_, updateTo_eq_ok.mpr ⟨hrc, s₁, s₂, hA, hB, rfl⟩⟩

end

end Sys2Proof.Machine
end

section
/-! The flag and the line stamp of an underflow that a reconciliation takes (43_chip_timers.md R164;
44_chip_icr_sdr_ports.md R210, R214; 42_interrupt_aggregator.md R143). -/

namespace Sys2Proof.Machine

section
variable {k : Nat} {x : Channel} {c e : Cycle} {bit : Byte} {s s' : State}

/-- The flag that is set where no read has won (44_chip_icr_sdr_ports.md R210). -/
theorem chip_setFlag_of_not_readWon (hk : k < s.chips.length) (h : readWon k e s = false) :
    (setFlag k bit e s).chip k = { s.chip k with flags := (s.chip k).flags ||| bit } := by
  rw [setFlag_of_not_readWon h, State.chip_updateLine, State.chip_setChip_self s _ hk]

theorem readWon_of_lastRead_ne (h : (s.chip k).lastRead ≠ some e) : readWon k e s = false := by
  simp [readWon, h]

/-- The level of a line depends on the sources alone (42_interrupt_aggregator.md R141). -/
theorem State.level_congr (hcfg : s'.cfg = s.cfg) (hsource : ∀ n, s'.source n = s.source n) (l : Line) :
    s'.level l = s.level l := by
  rw [Bool.eq_iff_iff, State.level_eq_true_iff, State.level_eq_true_iff]
  simp only [State.lineOf, hcfg, hsource]

/-- With one flag enabled the summary is that flag (44_chip_icr_sdr_ports.md R215). -/
theorem Chip.summary_of_mask {chip : Chip} (hmask : chip.mask = flagOf x) :
    chip.summary = decide (chip.flags &&& flagOf x ≠ 0) := by
  have hlow : flagOf x &&& 0x0F = flagOf x := by cases x <;> rfl
  rw [Chip.summary, hmask, BitVec.and_assoc, hlow]

theorem flagOf_ne_zero (x : Channel) : flagOf x ≠ 0 := by cases x <;> decide

theorem or_and_eq_self (f bit : Byte) : (f ||| bit) &&& bit = bit := by
  rw [BitVec.or_comm]
  exact or_and_self bit f

/-- A flag once set stays set (20_memory.md R67). -/
theorem Reconciling.flag_stays {n : Nat} {spared : Byte} (h : Reconciling k n spared s s')
    (hs : (s.chip k).flags &&& bit = bit) : (s'.chip k).flags &&& bit = bit := by
  rw [← hs, ← BitVec.and_assoc, h.flags_grow]

/-- The one enabled flag raises the summary when it is set (44_chip_icr_sdr_ports.md R215). -/
theorem Chip.summary_of_flag_set {chip : Chip} (hmask : chip.mask = flagOf x)
    (hflag : chip.flags &&& flagOf x = flagOf x) : chip.summary = true := by
  rw [Chip.summary_of_mask hmask, hflag]
  exact decide_eq_true (flagOf_ne_zero x)

/-- A summary that is true raises a line that is low, which is stamped (42_interrupt_aggregator.md R143). -/
theorem lineClk_updateLine_of_rise (hsource : k < s.cfg.nSources) (hsrc : k < s.src.length)
    (hsum : (s.chip k).summary = true) (hlow : s.level (s.lineOf k) = false) :
    (updateLine k e s).lineClk (s.lineOf k) = e := by
  have hhigh : (s.setSource k true).level (s.lineOf k) = true :=
    (State.level_eq_true_iff _ _).mpr ⟨k, hsource, rfl, State.source_setSource_self _ true hsrc⟩
  have hrises : s.rises k true = true := by simp [State.rises, hlow, hhigh]
  unfold updateLine aggSet
  rw [hsum, if_pos hrises]
  exact State.lineClk_setLineClk_self _ _ _

/-- The one enabled flag raises a low line, which is stamped (44_chip_icr_sdr_ports.md R210, R214). -/
theorem lineClk_setFlag_of_rise (ht : Tracked k s) (hsource : k < s.cfg.nSources) (hread : readWon k e s = false)
    (hmask : (s.chip k).mask = flagOf x) (hlow : s.level (s.lineOf k) = false) :
    (setFlag k (flagOf x) e s).lineClk (s.lineOf k) = e := by
  rw [setFlag_of_not_readWon hread]
  refine lineClk_updateLine_of_rise hsource ht.src_lt ?_ hlow
  rw [State.chip_setChip_self s _ ht.chip_lt]
  exact Chip.summary_of_flag_set hmask (or_and_eq_self _ _)

/-- A due channel takes its underflows after work apart from it, and after its flag is set more work of the
reconciliation follows (43_chip_timers.md R164, R166). -/
theorem updateTo_flagUnderflow (hk : k < s.chips.length) (hdue : (s.chip k).UnderflowDue x c)
    (h : updateTo k c s = .ok s') :
    ∃ u, ApartFrom k x c s u ∧
      ((u.chip k).oneShot x = true ∨ (u.chip k).rescheduled x c < neverNat) ∧
      Reconciling k c.toNat 0 (flagUnderflow k x c u) s' := by
  obtain ⟨u, v, w, hu, hcatch, hw, rfl⟩ := updateTo_channel hk hdue.not_cascaded h
  have hdueu := (Chip.underflowDue_congr hu.chan hu.ctl c).mpr hdue
  rcases chanCatchUp_cases hcatch with ⟨hnot, -⟩ | ⟨-, hfits, rfl⟩
  case inl => exact absurd hdueu hnot
  have hafter := (Reconciling.after_flagUnderflow hdueu).spare (fewer := 0) rfl
  have hrest := hw.toReconciling.spare (fewer := 0) BitVec.and_zero
  exact ⟨u, hu, hfits, (hafter.trans hrest).trans (Reconciling.storeLive c)⟩

/-- The underflows that are taken leave the record of the last read alone, so it wins over none of them where it is
before the first (44_chip_icr_sdr_ports.md R210). -/
theorem readWon_takeUnderflows (hread : (s.chip k).lastRead ≠ some ((s.chip k).chan x).u)
    (hfits : (s.chip k).oneShot x = true ∨ (s.chip k).rescheduled x c < neverNat) :
    readWon k ((s.chip k).chan x).u (takeUnderflows k x c s) = false := by
  have htake : Reconciling k c.toNat 0 s (takeUnderflows k x c s) := Reconciling.takeUnderflows hfits
  refine readWon_of_lastRead_ne ?_
  rwa [htake.kept.lastRead]

theorem flags_flagUnderflow (hk : k < s.chips.length) (hread : (s.chip k).lastRead ≠ some ((s.chip k).chan x).u)
    (hfits : (s.chip k).oneShot x = true ∨ (s.chip k).rescheduled x c < neverNat) :
    ((flagUnderflow k x c s).chip k).flags &&& flagOf x = flagOf x := by
  have htake : Reconciling k c.toNat 0 s (takeUnderflows k x c s) := Reconciling.takeUnderflows hfits
  unfold flagUnderflow
  rw [chip_setFlag_of_not_readWon (by rwa [htake.only.chips_length]) (readWon_takeUnderflows hread hfits)]
  exact or_and_eq_self _ _

/-- A reconciliation sets the flag of a due channel, no read having won (43_chip_timers.md R164). -/
theorem updateTo_due_flag (hk : k < s.chips.length) (hread : (s.chip k).lastRead ≠ some ((s.chip k).chan x).u)
    (hdue : (s.chip k).UnderflowDue x c) (h : updateTo k c s = .ok s') :
    (s'.chip k).flags &&& flagOf x = flagOf x := by
  obtain ⟨u, hu, hfits, hafter⟩ := updateTo_flagUnderflow hk hdue h
  have hreadu : (u.chip k).lastRead ≠ some ((u.chip k).chan x).u := by rwa [hu.kept.lastRead, hu.chan]
  exact hafter.flag_stays (flags_flagUnderflow (by rwa [hu.only.chips_length]) hreadu hfits)

/-- A low line stays low until the one enabled flag is set (42_interrupt_aggregator.md R141). -/
theorem level_of_apart {u : State} (ht : Tracked k s) (hu : Reconciling k c.toNat (flagOf x) s u)
    (hsource : k < s.cfg.nSources) (hmask : (s.chip k).mask = flagOf x) (hlow : s.level (s.lineOf k) = false) :
    u.level (s.lineOf k) = false := by
  have hsum : (u.chip k).summary = (s.chip k).summary := by
    rw [Chip.summary_of_mask hmask, Chip.summary_of_mask (hu.kept.mask.trans hmask), hu.flags_spared]
  have hsame (n : Nat) : u.source n = s.source n := by
    by_cases hn : n = k
    · subst hn
      rw [(hu.tracked ht).source_eq, hsum, ht.source_eq]
    · exact hu.only.source n hn
  rwa [State.level_congr hu.only.cfg hsame]

/-- With a channel's flag alone enabled, a line that is low is stamped with the first underflow taken
(44_chip_icr_sdr_ports.md R214). -/
theorem updateTo_due_stamp (ht : Tracked k s) (hsource : k < s.cfg.nSources)
    (hread : (s.chip k).lastRead ≠ some ((s.chip k).chan x).u) (hdue : (s.chip k).UnderflowDue x c)
    (hmask : (s.chip k).mask = flagOf x) (hlow : s.level (s.lineOf k) = false) (h : updateTo k c s = .ok s') :
    s'.lineClk (s.lineOf k) = ((s.chip k).chan x).u := by
  obtain ⟨u, hu, hfits, hafter⟩ := updateTo_flagUnderflow ht.chip_lt hdue h
  have hreadu : (u.chip k).lastRead ≠ some ((u.chip k).chan x).u := by rwa [hu.kept.lastRead, hu.chan]
  have htake : Reconciling k c.toNat (flagOf x) s (takeUnderflows k x c u) :=
    hu.toReconciling.trans (Reconciling.takeUnderflows hfits)
  have hline : (takeUnderflows k x c u).lineOf k = s.lineOf k := by rw [State.lineOf, htake.only.cfg, State.lineOf]
  have hstamp : (flagUnderflow k x c u).lineClk (s.lineOf k) = ((s.chip k).chan x).u := by
    unfold flagUnderflow
    rw [← hline, lineClk_setFlag_of_rise (htake.tracked ht) (by rwa [htake.only.cfg])
      (readWon_takeUnderflows hreadu hfits) (htake.kept.mask.trans hmask) ?_, hu.chan]
    rw [hline]
    exact level_of_apart ht htake hsource hmask hlow
  have hflag : FlagWork k c.toNat 0 (takeUnderflows k x c u) (flagUnderflow k x c u) :=
    FlagWork.setFlag BitVec.and_zero (by rw [hu.chan]; exact hdue.2)
  have htracked := hflag.tracked (htake.tracked ht)
  have hhigh : ((flagUnderflow k x c u).chip k).summary = true :=
    Chip.summary_of_flag_set (hflag.kept.mask.trans (htake.kept.mask.trans hmask))
      (flags_flagUnderflow (by rw [hu.only.chips_length]; exact ht.chip_lt) hreadu hfits)
  rw [hafter.stamp_eq htracked (by rw [hhigh, hafter.summary_mono hhigh]), hstamp]

end

end Sys2Proof.Machine
end

section
/-! A reconciliation keeps the invariant of its chip (43_chip_timers.md R162, R166), and the account of it for a state
that meets the invariant. -/

namespace Sys2Proof.Machine

/-! ### What the invariant says of the tables -/

section
variable {s : State} {k : Nat}

theorem State.Inv.chip_lt (h : s.Inv) (hk : k < s.cfg.nchip) : k < s.chips.length := by rwa [h.chips_length]

theorem State.Inv.source_lt (h : s.Inv) (hk : k < s.cfg.nchip) : k < s.cfg.nSources :=
  Nat.lt_of_lt_of_le hk h.cfg_wf.sources_ge

theorem State.Inv.todSlot_lt (h : s.Inv) (hk : k < s.cfg.nchip) : todSlot k < s.alarms.length := by
  have hslots := h.cfg_wf.slots_ge
  rw [h.alarms_length]
  unfold todSlot
  omega

theorem State.Inv.slotOf_lt (h : s.Inv) (hk : k < s.cfg.nchip) (x : Channel) : slotOf k x < s.alarms.length :=
  Nat.lt_trans (Machine.slotOf_lt k x).2 (h.todSlot_lt hk)

theorem State.Inv.tracked (h : s.Inv) (hk : k < s.cfg.nchip) : Tracked k s :=
  ⟨h.chip_lt hk, by rw [h.src_length]; exact h.source_lt hk, (h.chip k hk).source_eq⟩

theorem State.Inv.alarmsSound (h : s.Inv) : s.AlarmsSound :=
  fun al hal => ⟨h.armed_lt al hal, h.disarmed_never al hal⟩

/-- The flags were last read before the next underflow of a running channel (43_chip_timers.md R162). -/
theorem ChipInv.lastRead_ne (h : ChipInv s k) {x : Channel} (hrun : (s.chip k).chanState x = .running) :
    (s.chip k).lastRead ≠ some ((s.chip k).chan x).u := by
  intro hread
  have hle := BitVec.le_def.mp (h.lastRead_le _ hread)
  have hlt := BitVec.lt_def.mp ((h.chan x).running_after hrun)
  omega

end

/-! ### The invariant of a channel -/

section
variable {k : Nat} {x : Channel} {c : Cycle} {s s' : State}

theorem rc_updateTo (hk : k < s.chips.length) (h : updateTo k c s = .ok s') : (s'.chip k).rc = c := by
  obtain ⟨-, s₁, s₂, hA, hB, rfl⟩ := updateTo_eq_ok.mp h
  refine rc_storeLive ?_
  rwa [(OnlyChip.chanCatchUp hB).chips_length, (OnlyChip.chanCatchUp hA).chips_length]

theorem toNat_ofNat_min_count (n : Count) (m : Nat) : (BitVec.ofNat 16 (min n.toNat m)).toNat = min n.toNat m := by
  rw [BitVec.toNat_ofNat, Nat.mod_eq_of_lt]
  exact Nat.lt_of_le_of_lt (Nat.min_le_left _ _) n.isLt

/-- The next underflow after those taken at `c`, as it stands in the register. -/
theorem Chip.toNat_uAfter {chip : Chip} (hroom : c.toNat + 65536 < neverNat) (hdue : chip.UnderflowDue x c)
    (hshot : chip.oneShot x = false) : (chip.uAfter x c).toNat = chip.rescheduled x c := by
  have hle := (Chip.rescheduled_bounds hdue hshot).2
  have hperiod := chip.period_le x
  rw [Chip.uAfter, hshot]
  exact toNat_ofNat_cycle (by omega)

/-- A due one-shot channel ends stopped and disarmed (43_chip_timers.md R163). -/
theorem chanInv_updateTo_oneShot (hk : k < s.chips.length) (hslot : slotOf k x < s.alarms.length)
    (hdue : (s.chip k).UnderflowDue x c) (hshot : (s.chip k).oneShot x = true) (h : updateTo k c s = .ok s') :
    ChanInv s' k x := by
  obtain ⟨hchan, hctl, halarm⟩ := updateTo_due hk hslot hdue h
  have hstopped : (s'.chip k).chanState x = .stopped := by
    rw [Chip.chanState, hctl, Chip.ctlAfter, hshot, if_pos rfl, ctlState_clearStart]
  have hidle : (s'.chip k).chanState x ≠ .running := by rw [hstopped]; exact nofun
  refine ⟨fun hrun => absurd hrun hidle, fun hrun => absurd hrun hidle, fun hrun => absurd hrun hidle, fun _ => ?_,
    fun _ => ?_⟩
  · rw [hchan]
    simp [Chip.reloaded, Chip.uAfter, hshot]
  · rw [halarm]
    simp [Chip.slotAfter, Chip.uAfter, hshot]

/-- Another due channel ends running, its next underflow after `c` and within a period (43_chip_timers.md R163). -/
theorem chanInv_updateTo_continuous (hk : k < s.chips.length) (hslot : slotOf k x < s.alarms.length)
    (hroom : c.toNat + 65536 < neverNat) (hdue : (s.chip k).UnderflowDue x c)
    (hshot : (s.chip k).oneShot x = false) (h : updateTo k c s = .ok s') : ChanInv s' k x := by
  obtain ⟨hchan, hctl, halarm⟩ := updateTo_due hk hslot hdue h
  have hrunning : (s'.chip k).chanState x = .running := by
    rw [Chip.chanState, hctl, Chip.ctlAfter, hshot]
    exact hdue.1
  obtain ⟨hafter, hwithin⟩ := Chip.rescheduled_bounds hdue hshot
  rw [← Chip.toNat_uAfter hroom hdue hshot] at hafter hwithin
  have hu : ((s'.chip k).chan x).u = (s.chip k).uAfter x c := by rw [hchan]; rfl
  refine ⟨fun _ => ?_, fun _ => ?_, fun _ => ?_, fun hidle => absurd hrunning hidle, fun hidle => absurd hrunning hidle⟩
  · rw [rc_updateTo hk h, hu]
    exact BitVec.lt_def.mpr hafter
  · rw [halarm, hu]
    simp [Chip.slotAfter, hshot]
  · have hcnt : ((s'.chip k).chan x).cnt.toNat =
        min ((s.chip k).chan x).latch.toNat (((s.chip k).uAfter x c).toNat - c.toNat) := by
      rw [hchan, hshot]
      exact toNat_ofNat_min_count _ _
    rw [rc_updateTo hk h, hu, hcnt]
    unfold Chip.period at hwithin
    omega

/-- A channel that is not due keeps its next underflow and its slot (43_chip_timers.md R161, R166). -/
theorem chanInv_updateTo_not_due (hk : k < s.chips.length) (hinv : ChanInv s k x)
    (hcasc : ¬(s.chip k).Cascaded x) (hdue : ¬(s.chip k).UnderflowDue x c) (h : updateTo k c s = .ok s') :
    ChanInv s' k x := by
  obtain ⟨hchan, hctl, halarm, -⟩ := updateTo_not_due hk hcasc hdue h
  have hstate : (s'.chip k).chanState x = (s.chip k).chanState x := Chip.chanState_congr hctl
  have hu : ((s'.chip k).chan x).u = ((s.chip k).chan x).u := by rw [hchan]
  obtain ⟨-, harmed, hwindow, hnever, hdisarmed⟩ := hinv
  have hrc : (s.chip k).rc.toNat ≤ c.toNat := (updateTo_eq_ok.mp h).1
  have hlater (hrun : (s.chip k).chanState x = .running) : c.toNat < ((s.chip k).chan x).u.toNat :=
    Nat.lt_of_not_le fun hle => hdue ⟨hrun, hle⟩
  constructor <;> rw [hstate]
  case running_after =>
    intro hrun
    rw [rc_updateTo hk h, hu]
    exact BitVec.lt_def.mpr (hlater hrun)
  case running_armed =>
    intro hrun
    rw [halarm, hu, harmed hrun]
  case running_window =>
    intro hrun
    have hcnt : ((s'.chip k).chan x).cnt.toNat =
        min ((s.chip k).chan x).cnt.toNat (((s.chip k).chan x).u.toNat - c.toNat) := by
      rw [hchan, Chip.live_of_running hrun]
      exact toNat_ofNat_min_count _ _
    rw [rc_updateTo hk h, hu, hcnt]
    have := hwindow hrun
    omega
  case idle_never => exact fun hidle => hu.trans (hnever hidle)
  case idle_disarmed => exact fun hidle => halarm.trans (hdisarmed hidle)

/-- A reconciliation keeps the invariant of each channel, at any cycle with room below `NEVER` (43_chip_timers.md
R162). -/
theorem chanInv_updateTo (hk : k < s.chips.length) (hslot : slotOf k x < s.alarms.length)
    (hroom : c.toNat + 65536 < neverNat) (hinv : ChanInv s k x) (h : updateTo k c s = .ok s') : ChanInv s' k x := by
  by_cases hcasc : (s.chip k).Cascaded x
  case pos =>
    obtain ⟨rfl, hstate⟩ := hcasc
    obtain ⟨hidle', hu, halarm⟩ := updateTo_cascaded hk hstate h
    have hidle : (s.chip k).chanState .B ≠ .running := by rw [hstate]; exact nofun
    exact ⟨fun hrun => absurd hrun hidle', fun hrun => absurd hrun hidle', fun hrun => absurd hrun hidle',
      fun _ => hu.trans (hinv.idle_never hidle), fun _ => halarm.trans (hinv.idle_disarmed hidle)⟩
  case neg =>
    by_cases hdue : (s.chip k).UnderflowDue x c
    case pos =>
      cases hshot : (s.chip k).oneShot x with
      | true => exact chanInv_updateTo_oneShot hk hslot hdue hshot h
      | false => exact chanInv_updateTo_continuous hk hslot hroom hdue hshot h
    case neg => exact chanInv_updateTo_not_due hk hinv hcasc hdue h

end

end Sys2Proof.Machine
end

section
/-! The callbacks of a dispatch keep the invariant (43_chip_timers.md R162; 41_alarm_scheduler.md R129): a
reconciliation at `clk`, a tick of the time of day, an external slot that fires. -/

namespace Sys2Proof.Machine

section
variable {k : Nat} {x : Channel} {s t : State}

/-! ### The invariant and its frame -/

theorem ChanInv.congr (hchan : (t.chip k).chan x = (s.chip k).chan x) (hctl : (t.chip k).ctl x = (s.chip k).ctl x)
    (hrc : (t.chip k).rc = (s.chip k).rc) (halarm : t.alarm (slotOf k x) = s.alarm (slotOf k x))
    (h : ChanInv s k x) : ChanInv t k x := by
  obtain ⟨hafter, harmed, hwindow, hnever, hdisarmed⟩ := h
  constructor <;> rw [Chip.chanState_congr hctl] <;> first | rw [hchan] | skip
  · rwa [hrc]
  · rwa [halarm]
  · rwa [hrc]
  · exact hnever
  · rwa [halarm]

/-- The invariant of a chip depends on the chip, its slots, its source and the counter. -/
theorem ChipInv.congr (hchip : t.chip k = s.chip k) (hclk : t.clk = s.clk)
    (hslot : ∀ x, t.alarm (slotOf k x) = s.alarm (slotOf k x)) (htod : t.alarm (todSlot k) = s.alarm (todSlot k))
    (hsource : t.source k = s.source k) (h : ChipInv s k) : ChipInv t k where
  chan := fun x => (h.chan x).congr (by rw [hchip]) (by rw [hchip]) (by rw [hchip]) (hslot x)
  rc_le := by rw [hchip, hclk]; exact h.rc_le
  lastRead_le := by rw [hchip]; exact h.lastRead_le
  source_eq := by rw [hchip, hsource]; exact h.source_eq
  srBits_le := by rw [hchip]; exact h.srBits_le
  tod_armed := by rw [htod]; exact h.tod_armed
  mask_low := by rw [hchip]; exact h.mask_low
  flags_low := by rw [hchip]; exact h.flags_low
  cra_strobe := by rw [hchip]; exact h.cra_strobe
  crb_strobe := by rw [hchip]; exact h.crb_strobe
  tod_masked := by rw [hchip]; exact h.tod_masked
  todAlarm_masked := by rw [hchip]; exact h.todAlarm_masked
  todLatch_masked := by rw [hchip]; exact h.todLatch_masked

/-- The slots of one chip are none of another's (10_state.md R25). -/
theorem OnlyChip.alarm_of_ne {j : Nat} (h : OnlyChip k s t) (hj : j ≠ k) :
    (∀ x, t.alarm (slotOf j x) = s.alarm (slotOf j x)) ∧ t.alarm (todSlot j) = s.alarm (todSlot j) := by
  refine ⟨fun x => h.alarm _ (fun he => hj (slotOf_inj he).1) (fun he => hj (slotOf_inj he).1)
    (slotOf_ne_todSlot j k x), h.alarm _ (slotOf_ne_todSlot k j .A).symm (slotOf_ne_todSlot k j .B).symm ?_⟩
  unfold todSlot
  omega

/-- Work on one chip keeps the invariant where it keeps that chip's, the alarm table and the line stamps sound. -/
theorem OnlyChip.inv (h : OnlyChip k s t) (hinv : s.Inv) (hsound : t.AlarmsSound) (hstamp : ∀ l, t.lineClk l ≤ t.clk)
    (hchip : ChipInv t k) : t.Inv where
  cfg_wf := by rw [h.cfg]; exact hinv.cfg_wf
  alarms_length := by rw [h.cfg, h.alarms_length, hinv.alarms_length]
  src_length := by rw [h.cfg, h.src_length, hinv.src_length]
  chips_length := by rw [h.cfg, h.chips_length, hinv.chips_length]
  clk_lt := by rw [h.clk]; exact hinv.clk_lt
  armed_lt := fun al hal => (hsound al hal).1
  disarmed_never := fun al hal => (hsound al hal).2
  lineClk_le := hstamp
  chip := fun j hj => by
    by_cases hjk : j = k
    · exact hjk ▸ hchip
    · obtain ⟨hslot, htod⟩ := h.alarm_of_ne hjk
      exact (hinv.chip j (by rwa [h.cfg] at hj)).congr (h.chip j hjk) h.clk hslot htod (h.source j hjk)

/-! ### Reconciliation at `clk` -/

theorem State.Ready.room (h : s.Ready) : s.clk.toNat + 65536 < neverNat := by
  have := h.headroom
  omega

/-- A reconciliation at `clk` keeps the invariant of its chip (43_chip_timers.md R162, R166). -/
theorem chipInv_updateTo (hinv : s.Inv) (hk : k < s.cfg.nchip) (hroom : s.clk.toNat + 65536 < neverNat)
    (h : updateTo k s.clk s = .ok t) : ChipInv t k := by
  have hwork := Reconciling.updateTo h
  have hrc := rc_updateTo (hinv.chip_lt hk) h
  have hchip := hinv.chip k hk
  exact {
    chan := fun x => chanInv_updateTo (hinv.chip_lt hk) (hinv.slotOf_lt hk x) hroom (hchip.chan x) h
    rc_le := by rw [hrc, hwork.only.clk]; exact Nat.le_refl _
    lastRead_le := fun e he => by
      rw [hwork.kept.lastRead] at he
      rw [hrc]
      exact Nat.le_trans (hchip.lastRead_le e he) hchip.rc_le
    source_eq := (hwork.tracked (hinv.tracked hk)).source_eq
    srBits_le := Nat.le_trans hwork.srBits_le hchip.srBits_le
    tod_armed := by rw [hwork.alarm_tod]; exact hchip.tod_armed
    mask_low := by rw [hwork.kept.mask]; exact hchip.mask_low
    flags_low := (and_eq_of_and_eq hwork.flags_spared rfl).trans hchip.flags_low
    cra_strobe := (and_eq_of_and_eq hwork.kept.cra rfl).trans hchip.cra_strobe
    crb_strobe := (and_eq_of_and_eq hwork.kept.crb rfl).trans hchip.crb_strobe
    tod_masked := by rw [hwork.tod]; exact hchip.tod_masked
    todAlarm_masked := by rw [hwork.kept.todAlarm]; exact hchip.todAlarm_masked
    todLatch_masked := by rw [hwork.kept.todLatch]; exact hchip.todLatch_masked }

theorem inv_updateTo (hinv : s.Inv) (hk : k < s.cfg.nchip) (hroom : s.clk.toNat + 65536 < neverNat)
    (h : updateTo k s.clk s = .ok t) : t.Inv := by
  have hwork := Reconciling.updateTo h
  refine hwork.only.inv hinv (hwork.alarmsSound hinv.alarmsSound) (fun l => ?_) (chipInv_updateTo hinv hk hroom h)
  rw [hwork.only.clk]
  exact hwork.stamp_le l (hinv.lineClk_le l)

/-- After a reconciliation at `clk` no channel of the chip is due (43_chip_timers.md R162). -/
theorem due_updateTo (hinv : s.Inv) (hk : k < s.cfg.nchip) (hroom : s.clk.toNat + 65536 < neverNat)
    (h : updateTo k s.clk s = .ok t) (x : Channel) : (t.alarm (slotOf k x)).due t.clk = false := by
  have hchan := (chipInv_updateTo hinv hk hroom h).chan x
  by_cases hrun : (t.chip k).chanState x = .running
  · have hafter := hchan.running_after hrun
    rw [rc_updateTo (hinv.chip_lt hk) h, ← (OnlyChip.updateTo h).clk] at hafter
    rw [hchan.running_armed hrun]
    simpa [Alarm.due] using hafter
  · rw [hchan.idle_disarmed hrun]
    rfl

/-! ### A tick -/

theorem and_masked {b m : Byte} (n : Byte) (h : n &&& m = 0) : b &&& n &&& m = 0 := by
  rw [BitVec.and_assoc, h]
  exact BitVec.and_zero

/-- The next second or minute is inside its write mask (45_chip_tod.md R240, R241). -/
theorem inc60_masked (b : Byte) : (inc60 b).1 &&& 0x80 = 0 := by
  revert b
  decide

/-- The next hour is inside its write mask (45_chip_tod.md R240, R241). -/
theorem incHours_masked (h : Byte) : incHours h &&& 0x60 = 0 := by
  revert h
  decide

theorem incTenths_masked (b : Byte) : (b + 1) &&& 0x0F &&& 0xF0 = 0 := and_masked 0x0F rfl

/-- One tenth later the bytes are inside their write masks (45_chip_tod.md R240, R241). -/
theorem todInc_masked {d : Tod} (h : d.Masked) : (todInc d).Masked := by
  obtain ⟨-, hsec, hmin, hhr⟩ := h
  have hzero : (0 : Byte) &&& 0xF0 = 0 := rfl
  unfold todInc
  dsimp only
  split
  · exact ⟨incTenths_masked _, hsec, hmin, hhr⟩
  · split
    · exact ⟨hzero, inc60_masked _, hmin, hhr⟩
    · split
      · exact ⟨hzero, inc60_masked _, inc60_masked _, hhr⟩
      · exact ⟨hzero, inc60_masked _, inc60_masked _, incHours_masked _⟩

theorem tracked_tickClock (h : Tracked k s) : Tracked k (tickClock k s) := by
  have hchip : (tickClock k s).chip k = { s.chip k with tod := todInc (s.chip k).tod } :=
    State.chip_setChip_self s _ h.chip_lt
  refine ⟨?_, h.src_lt, ?_⟩
  · simpa [tickClock] using h.chip_lt
  · rw [hchip]
    exact h.source_eq

theorem tracked_todAdvance (T : Cycle) (h : Tracked k s) : Tracked k (todAdvance k T s) := by
  rcases todAdvance_cases k T s with ⟨-, hs⟩ | ⟨-, hs⟩ | ⟨-, hs⟩ <;> rw [hs]
  · exact h
  · exact tracked_tickClock h
  · exact tracked_setFlag (tracked_tickClock h)

@[simp] theorem todAdvance_alarms (k : Nat) (T : Cycle) (s : State) : (todAdvance k T s).alarms = s.alarms := by
  rcases todAdvance_cases k T s with ⟨-, hs⟩ | ⟨-, hs⟩ | ⟨-, hs⟩ <;> rw [hs]
  · rfl
  · exact setFlag_alarms k _ T _

/-- A tick stamps a line at its own cycle or not at all (45_chip_tod.md R243). -/
theorem lineClk_todAdvance_cases (k : Nat) (T : Cycle) (s : State) (l : Line) :
    (todAdvance k T s).lineClk l = s.lineClk l ∨ (todAdvance k T s).lineClk l = T := by
  have htick : (tickClock k s).lineClk l = s.lineClk l := State.lineClk_setChip s k _ l
  rcases todAdvance_cases k T s with ⟨-, hs⟩ | ⟨-, hs⟩ | ⟨-, hs⟩ <;> rw [hs]
  · exact .inl rfl
  · exact .inl htick
  · rw [← htick]
    exact lineClk_setFlag_cases k flagAlarm T (tickClock k s) l

theorem tod_todAdvance_masked (T : Cycle) (h : (s.chip k).tod.Masked) : ((todAdvance k T s).chip k).tod.Masked := by
  have htick : ((tickClock k s).chip k).tod.Masked := by
    rcases State.setChip_cases s k { s.chip k with tod := todInc (s.chip k).tod } with ⟨-, hc⟩ | hc <;>
      rw [tickClock, hc]
    · exact todInc_masked h
    · exact h
  rcases todAdvance_cases k T s with ⟨-, hs⟩ | ⟨-, hs⟩ | ⟨-, hs⟩ <;> rw [hs]
  · exact h
  · exact htick
  · rcases chip_setFlag_cases k flagAlarm T (tickClock k s) with hc | hc <;> rw [hc] <;> exact htick

/-- What a tick leaves of its chip in the shape the invariant reads it. -/
theorem ChipTicked.chan {c c' : Chip} (h : ChipTicked c c') (x : Channel) : c'.chan x = c.chan x := by
  rw [h.rest]
  cases x <;> rfl

theorem ChipTicked.ctl {c c' : Chip} (h : ChipTicked c c') (x : Channel) : c'.ctl x = c.ctl x := by
  rw [h.rest]
  cases x <;> rfl

theorem ChipTicked.rc {c c' : Chip} (h : ChipTicked c c') : c'.rc = c.rc := by rw [h.rest]

theorem ChipTicked.srBits {c c' : Chip} (h : ChipTicked c c') : c'.srBits = c.srBits := by rw [h.rest]

/-- The channels' slots are not the tick's (10_state.md R25). -/
theorem alarm_todTick {T : Cycle} (h : todTick k T s = .ok t) {a : Nat} (ha : a ≠ todSlot k) :
    t.alarm a = s.alarm a := by
  obtain ⟨-, rfl⟩ := todTick_eq_ok.mp h
  rw [State.alarm_setAlarm_ne _ _ ha, State.alarm_eq_of_alarms_eq (todAdvance_alarms k T s)]

theorem alarm_todTick_self {T : Cycle} (hslot : todSlot k < s.alarms.length) (h : todTick k T s = .ok t) :
    t.alarm (todSlot k) = ⟨true, BitVec.ofNat 32 (T.toNat + s.cfg.todPeriod)⟩ := by
  obtain ⟨-, rfl⟩ := todTick_eq_ok.mp h
  exact State.alarm_setAlarm_self _ _ (by rwa [todAdvance_alarms])

/-- A tick keeps the invariant of its chip (43_chip_timers.md R162; 45_chip_tod.md R243). -/
theorem chipInv_todTick {T : Cycle} (hinv : s.Inv) (hk : k < s.cfg.nchip) (h : todTick k T s = .ok t) :
    ChipInv t k := by
  have hticked := chipTicked_todTick h
  have hframe := OnlyChip.todTick h
  have hchip := hinv.chip k hk
  have hsource : t.source k = (t.chip k).summary ∧ (t.chip k).tod.Masked := by
    obtain ⟨-, rfl⟩ := todTick_eq_ok.mp h
    exact ⟨(tracked_todAdvance T (hinv.tracked hk)).source_eq, tod_todAdvance_masked T hchip.tod_masked⟩
  exact {
    chan := fun x => (hchip.chan x).congr (hticked.chan x) (hticked.ctl x) hticked.rc
      (alarm_todTick h (slotOf_ne_todSlot k k x))
    rc_le := by rw [hticked.rc, hframe.clk]; exact hchip.rc_le
    lastRead_le := by rw [hticked.kept.lastRead, hticked.rc]; exact hchip.lastRead_le
    source_eq := hsource.1
    srBits_le := by rw [hticked.srBits]; exact hchip.srBits_le
    tod_armed := by rw [alarm_todTick_self (hinv.todSlot_lt hk) h]
    mask_low := by rw [hticked.kept.mask]; exact hchip.mask_low
    flags_low := (and_eq_of_and_eq hticked.flags rfl).trans hchip.flags_low
    cra_strobe := (and_eq_of_and_eq hticked.kept.cra rfl).trans hchip.cra_strobe
    crb_strobe := (and_eq_of_and_eq hticked.kept.crb rfl).trans hchip.crb_strobe
    tod_masked := hsource.2
    todAlarm_masked := by rw [hticked.kept.todAlarm]; exact hchip.todAlarm_masked
    todLatch_masked := by rw [hticked.kept.todLatch]; exact hchip.todLatch_masked }

theorem inv_todTick {T : Cycle} (hinv : s.Inv) (hk : k < s.cfg.nchip) (hT : T ≤ s.clk) (h : todTick k T s = .ok t) :
    t.Inv := by
  have hframe := OnlyChip.todTick h
  refine hframe.inv hinv ?_ (fun l => ?_) (chipInv_todTick hinv hk h)
  · obtain ⟨hlt, rfl⟩ := todTick_eq_ok.mp h
    have hsound : (todAdvance k T s).AlarmsSound := by
      rw [State.AlarmsSound, todAdvance_alarms]
      exact hinv.alarmsSound
    exact hsound.setAlarm _ (Alarm.sound_armed (by rwa [toNat_ofNat_cycle hlt]))
  · rw [hframe.clk]
    obtain ⟨-, rfl⟩ := todTick_eq_ok.mp h
    rw [State.lineClk_setAlarm]
    rcases lineClk_todAdvance_cases k T s l with hl | hl <;> rw [hl]
    · exact hinv.lineClk_le l
    · exact hT

/-! ### An external slot -/

/-- An external slot that fires keeps the invariant: it is no chip's (10_state.md R25; 41_alarm_scheduler.md R129). -/
theorem inv_fire_external {a : Nat} (e : Event) (hinv : s.Inv) (ha : 3 * s.cfg.nchip ≤ a) :
    (emit e (alarmUnset a s)).Inv := by
  have hsound : (alarmUnset a s).AlarmsSound := hinv.alarmsSound.setAlarm a Alarm.sound_disarmed
  have hslots {b : Nat} (hb : b < 3 * s.cfg.nchip) : (emit e (alarmUnset a s)).alarm b = s.alarm b :=
    State.alarm_setAlarm_ne s _ (by omega)
  exact {
    cfg_wf := hinv.cfg_wf
    alarms_length := (List.length_set ..).trans hinv.alarms_length
    src_length := hinv.src_length
    chips_length := hinv.chips_length
    clk_lt := hinv.clk_lt
    armed_lt := fun al hal => (hsound al hal).1
    disarmed_never := fun al hal => (hsound al hal).2
    lineClk_le := fun l => by cases l <;> [exact hinv.lineClk_le .maskable; exact hinv.lineClk_le .urgent]
    chip := fun j hj => by
      have hj' : j < s.cfg.nchip := hj
      refine ChipInv.congr (s := s) rfl rfl (fun x => hslots ?_) (hslots ?_) rfl (hinv.chip j hj')
      · have := (slotOf_lt j x).2
        unfold todSlot at this
        omega
      · unfold todSlot
        omega }

end

end Sys2Proof.Machine
end

section
/-! A dispatch of a sound state with room below `NEVER` ends (41_alarm_scheduler.md R128, R134): every callback
succeeds, keeps the state so, and lowers the measure. -/

namespace Sys2Proof.Machine

section
variable {a k overrun : Nat} {x : Channel} {s t : State}

/-! ### Whose slot it is -/

/-- A slot is a channel's, a tick's or external (10_state.md R25). -/
theorem slot_cases (a n : Nat) :
    (∃ k x, k < n ∧ a = slotOf k x) ∨ (∃ k, k < n ∧ a = todSlot k) ∨ 3 * n ≤ a := by
  by_cases ha : a < 3 * n
  case neg => exact .inr (.inr (Nat.le_of_not_lt ha))
  case pos =>
    have hk : a / 3 < n := by omega
    have hmod : a % 3 = 0 ∨ a % 3 = 1 ∨ a % 3 = 2 := by omega
    rcases hmod with h | h | h
    · exact .inl ⟨a / 3, .A, hk, by simp only [slotOf]; omega⟩
    · exact .inl ⟨a / 3, .B, hk, by simp only [slotOf]; omega⟩
    · exact .inr (.inl ⟨a / 3, hk, by simp only [todSlot]; omega⟩)

/-- A channel's slot reconciles its chip at `clk` (41_alarm_scheduler.md R129). -/
theorem fire_slotOf (hk : k < s.cfg.nchip) : fire (slotOf k x) overrun s = updateTo k s.clk s := by
  have hslot : slotOf k x < 3 * s.cfg.nchip ∧ slotOf k x / 3 = k ∧ slotOf k x % 3 ≠ 2 := by
    cases x <;> simp only [slotOf] <;> omega
  unfold fire
  rw [if_pos hslot.1, if_neg hslot.2.2, hslot.2.1]

/-- A tick's slot ticks its chip's clock at the slot's target (41_alarm_scheduler.md R129). -/
theorem fire_todSlot (hk : k < s.cfg.nchip) :
    fire (todSlot k) overrun s = todTick k (s.alarm (todSlot k)).target s := by
  have hslot : todSlot k < 3 * s.cfg.nchip ∧ todSlot k / 3 = k ∧ todSlot k % 3 = 2 := by
    unfold todSlot
    omega
  unfold fire
  rw [if_pos hslot.1, if_pos hslot.2.2, hslot.2.1]

/-! ### Every callback succeeds and keeps the state ready -/

theorem target_le_of_due (h : (s.alarm a).due s.clk = true) : (s.alarm a).target ≤ s.clk := (Alarm.due_iff.mp h).2

/-- A due callback of a ready state succeeds (40_counter_guard.md R104). -/
theorem fire_total (hready : s.Ready) (hdue : (s.alarm a).due s.clk = true) : ∃ t, fire a overrun s = .ok t := by
  rcases slot_cases a s.cfg.nchip with ⟨k, x, hk, rfl⟩ | ⟨k, hk, rfl⟩ | ha
  · rw [fire_slotOf hk]
    exact updateTo_total (hready.inv.chip k hk).rc_le hready.room
  · rw [fire_todSlot hk]
    have hle := BitVec.le_def.mp (target_le_of_due hdue)
    have hroom := hready.headroom
    exact ⟨_, todTick_eq_ok.mpr ⟨by omega, rfl⟩⟩
  · exact ⟨_, fire_external (Nat.not_lt_of_le ha)⟩

/-- A due callback keeps the state ready (43_chip_timers.md R162). -/
theorem ready_fire (hready : s.Ready) (hdue : (s.alarm a).due s.clk = true) (h : fire a overrun s = .ok t) :
    t.Ready := by
  have hkeeps := DispatchKeeps.fire hdue h
  have hinv : t.Inv := by
    rcases slot_cases a s.cfg.nchip with ⟨k, x, hk, rfl⟩ | ⟨k, hk, rfl⟩ | ha
    · rw [fire_slotOf hk] at h
      exact inv_updateTo hready.inv hk hready.room h
    · rw [fire_todSlot hk] at h
      exact inv_todTick hready.inv hk (target_le_of_due hdue) h
    · rw [fire_external (Nat.not_lt_of_le ha)] at h
      cases h
      exact inv_fire_external _ hready.inv ha
  refine ⟨hinv, hkeeps.fault.trans hready.no_fault, ?_⟩
  rw [State.Headroom, hkeeps.clk, hkeeps.cfg]
  exact hready.headroom

/-! ### The measure -/

theorem Alarm.lateness_of_not_due {al : Alarm} {c : Cycle} (h : al.due c = false) (period : Nat) :
    al.lateness c period = 0 := by simp [Alarm.lateness, h]

theorem Alarm.lateness_of_due {al : Alarm} {c : Cycle} (h : al.due c = true) (period : Nat) :
    al.lateness c period = (c.toNat - al.target.toNat) / period + 1 := by simp [Alarm.lateness, h]

/-- A tick armed again a period later is late by one callback less (41_alarm_scheduler.md R134). -/
theorem Alarm.lateness_next_tick {al : Alarm} {c : Cycle} {period : Nat} (hpos : 0 < period)
    (hfits : al.target.toNat + period < neverNat) (hdue : al.due c = true) :
    (Alarm.mk true (BitVec.ofNat 32 (al.target.toNat + period))).lateness c period < al.lateness c period := by
  have htarget := toNat_ofNat_cycle hfits
  rw [Alarm.lateness_of_due hdue]
  cases hnext : (Alarm.mk true (BitVec.ofNat 32 (al.target.toNat + period))).due c with
  | false =>
    rw [Alarm.lateness_of_not_due hnext]
    exact Nat.succ_pos _
  | true =>
    have hle := BitVec.le_def.mp (Alarm.due_iff.mp hnext).2
    dsimp only at hle
    rw [htarget] at hle
    rw [Alarm.lateness_of_due hnext, htarget]
    have hsplit : c.toNat - al.target.toNat = (c.toNat - (al.target.toNat + period)) + period := by omega
    rw [hsplit, Nat.add_div_right _ hpos]
    exact Nat.lt_succ_self _

/-- The measure of a dispatch, slot by slot (41_alarm_scheduler.md R134). -/
theorem dispatchFuel_eq (s : State) :
    dispatchFuel s = ((List.range s.alarms.length).map fun b => (s.alarm b).lateness s.clk s.cfg.todPeriod).sum := by
  have hlist : s.alarms = (List.range s.alarms.length).map s.alarm := by
    apply List.ext_getElem
    · simp
    · intro i hi hi'
      simp [State.alarm, List.getD_eq_getElem?_getD, hi]
  unfold dispatchFuel
  conv_lhs => rw [hlist, List.map_map]
  rfl

/-- The measure goes down where one slot's part does and no other's goes up. -/
theorem dispatchFuel_lt (hcfg : t.cfg = s.cfg) (hclk : t.clk = s.clk) (hlen : t.alarms.length = s.alarms.length)
    (hle : ∀ b, (t.alarm b).lateness s.clk s.cfg.todPeriod ≤ (s.alarm b).lateness s.clk s.cfg.todPeriod)
    (ha : a < s.alarms.length)
    (hlt : (t.alarm a).lateness s.clk s.cfg.todPeriod < (s.alarm a).lateness s.clk s.cfg.todPeriod) :
    dispatchFuel t < dispatchFuel s := by
  rw [dispatchFuel_eq, dispatchFuel_eq, hcfg, hclk, hlen]
  exact List.sum_lt_sum _ _ (fun b _ => hle b) ⟨a, List.mem_range.mpr ha, hlt⟩

theorem todPeriod_pos_of_wf {cfg : Config} (h : cfg.Wf) : 0 < cfg.todPeriod :=
  Nat.div_pos h.cyclesPerSecond_ge (by decide)

/-- A callback makes no slot later, and the slot it is for less late (41_alarm_scheduler.md R134). -/
theorem lateness_fire (hready : s.Ready) (ha : a < s.alarms.length) (hdue : (s.alarm a).due s.clk = true)
    (h : fire a overrun s = .ok t) :
    (∀ b, t.alarm b = s.alarm b ∨
      (t.alarm b).lateness s.clk s.cfg.todPeriod < (s.alarm b).lateness s.clk s.cfg.todPeriod ∨
      (t.alarm b).due s.clk = false) ∧
    (t.alarm a).lateness s.clk s.cfg.todPeriod < (s.alarm a).lateness s.clk s.cfg.todPeriod := by
  have hgone (hnow : (t.alarm a).due s.clk = false) :
      (t.alarm a).lateness s.clk s.cfg.todPeriod < (s.alarm a).lateness s.clk s.cfg.todPeriod := by
    rw [Alarm.lateness_of_not_due hnow, Alarm.lateness_of_due hdue]
    exact Nat.succ_pos _
  rcases slot_cases a s.cfg.nchip with ⟨k, x, hk, rfl⟩ | ⟨k, hk, rfl⟩ | hext
  · rw [fire_slotOf hk] at h
    have hwork := Reconciling.updateTo h
    have hnow (y : Channel) : (t.alarm (slotOf k y)).due s.clk = false := by
      rw [← hwork.only.clk]
      exact due_updateTo hready.inv hk hready.room h y
    refine ⟨fun b => ?_, hgone (hnow x)⟩
    by_cases hA : b = slotOf k .A
    · exact .inr (.inr (hA ▸ hnow .A))
    by_cases hB : b = slotOf k .B
    · exact .inr (.inr (hB ▸ hnow .B))
    by_cases hT : b = todSlot k
    · exact .inl (hT ▸ hwork.alarm_tod)
    exact .inl (hwork.only.alarm b hA hB hT)
  · rw [fire_todSlot hk] at h
    have hlt : (t.alarm (todSlot k)).lateness s.clk s.cfg.todPeriod <
        (s.alarm (todSlot k)).lateness s.clk s.cfg.todPeriod := by
      rw [alarm_todTick_self ha h]
      exact Alarm.lateness_next_tick (todPeriod_pos_of_wf hready.inv.cfg_wf) (todTick_eq_ok.mp h).1 hdue
    refine ⟨fun b => ?_, hlt⟩
    by_cases hb : b = todSlot k
    · exact .inr (.inl (hb ▸ hlt))
    · exact .inl (alarm_todTick h hb)
  · rw [fire_external (Nat.not_lt_of_le hext)] at h
    cases h
    have halarm (b : Nat) : (emit (.fired a overrun) (alarmUnset a s)).alarm b =
        if b = a then Alarm.absent else s.alarm b := alarm_alarmUnset s a b
    have hnow : ((emit (.fired a overrun) (alarmUnset a s)).alarm a).due s.clk = false := by
      rw [halarm, if_pos rfl]
      rfl
    refine ⟨fun b => ?_, hgone hnow⟩
    by_cases hb : b = a
    · exact .inr (.inr (hb ▸ hnow))
    · exact .inl (by rw [halarm, if_neg hb])

/-- Every callback lowers the measure (41_alarm_scheduler.md R134). -/
theorem dispatchFuel_fire (hready : s.Ready) (ha : a < s.alarms.length) (hdue : (s.alarm a).due s.clk = true)
    (h : fire a overrun s = .ok t) : dispatchFuel t < dispatchFuel s := by
  have hkeeps := DispatchKeeps.fire hdue h
  obtain ⟨hall, hlt⟩ := lateness_fire hready ha hdue h
  refine dispatchFuel_lt hkeeps.cfg hkeeps.clk hkeeps.alarms_length (fun b => ?_) ha hlt
  rcases hall b with hb | hb | hb
  · rw [hb]
  · exact Nat.le_of_lt hb
  · rw [Alarm.lateness_of_not_due hb]
    exact Nat.zero_le _

/-! ### The loop ends -/

theorem dispatchLoop_total {fuel : Nat} (n : Nat) (hready : s.Ready) (hfuel : dispatchFuel s ≤ fuel) :
    ∃ t m, dispatchLoop fuel n s = .ok (t, m) := by
  induction fuel generalizing n s with
  | zero =>
    cases hfirst : s.firstDue with
    | none => exact ⟨s, n, dispatchLoop_none hfirst 0 n⟩
    | some a =>
      obtain ⟨ha, hdue, -⟩ := State.firstDue_eq_some.mp hfirst
      obtain ⟨t, ht⟩ := fire_total (overrun := 0) hready hdue
      have := dispatchFuel_fire hready ha hdue ht
      omega
  | succ fuel ih =>
    cases hfirst : s.firstDue with
    | none => exact ⟨s, n, dispatchLoop_none hfirst _ n⟩
    | some a =>
      obtain ⟨ha, hdue, -⟩ := State.firstDue_eq_some.mp hfirst
      obtain ⟨t, ht⟩ := fire_total (overrun := s.clk.toNat - (s.alarm a).target.toNat) hready hdue
      have hlt := dispatchFuel_fire hready ha hdue ht
      rw [dispatchLoop_succ hfirst, ht, ok_bind]
      exact ih (n + 1) (ready_fire hready hdue ht) (by omega)

/-- A dispatch of a ready state ends ready, with no slot due (41_alarm_scheduler.md R128, R134). -/
theorem dispatch_of_ready (hready : s.Ready) :
    ∃ t n, dispatch s = .ok (t, n) ∧ t.Ready ∧ t.NoneDue ∧ t.clk = s.clk := by
  obtain ⟨t, n, h⟩ := dispatchLoop_total 0 hready (Nat.le_refl _)
  obtain ⟨hready', hend⟩ := dispatchLoop_keeps (P := State.Ready)
    (fun _ _ _ hs hfirst hfire => ready_fire hs (State.firstDue_eq_some.mp hfirst).2.1 hfire) hready h
  exact ⟨t, n, h, hready', State.firstDue_eq_none.mp hend, (DispatchKeeps.dispatch h).1.clk⟩

/-! ### The opening of an access -/

/-- With nothing due no running channel has an underflow left to process (43_chip_timers.md R162). -/
theorem State.Ready.lt_of_noneDue (hready : s.Ready) (hnone : s.NoneDue) (hk : k < s.cfg.nchip)
    (hrun : (s.chip k).chanState x = .running) : s.clk < ((s.chip k).chan x).u := by
  have hdue := hnone.alarm (slotOf k x)
  rw [((hready.inv.chip k hk).chan x).running_armed hrun] at hdue
  simpa [Alarm.due] using hdue

/-- The opening of an access dispatches, then stores the live counters; the body runs in the state so reached
(44_chip_icr_sdr_ports.md R231, R232). -/
theorem accessChip_of_ready (hready : s.Ready) (hk : k < s.cfg.nchip) :
    ∃ t, AccessedAs s k t ∧ ∀ body : State → Result, accessChip k s body = body t := by
  obtain ⟨s₁, n, hdispatch, hready₁, hnone, -⟩ := dispatch_of_ready hready
  have hk₁ : k < s₁.cfg.nchip := by rwa [(DispatchKeeps.dispatch hdispatch).1.cfg]
  have hupdate : updateTo k s₁.clk s₁ = .ok (storeLive k s₁.clk s₁) :=
    updateTo_idle (hready₁.inv.chip k hk₁).rc_le fun x hrun => hready₁.lt_of_noneDue hnone hk₁ hrun
  exact ⟨_, ⟨s₁, ⟨n, hdispatch⟩, rfl⟩, fun body => accessChip_of_ok hk hdispatch hupdate body⟩

end

end Sys2Proof.Machine
end

section
/-! `CHIP_PEEK` and `CHIP_READ` have the same opening and answer the same byte (20_memory.md R69;
44_chip_icr_sdr_ports.md R219). -/

namespace Sys2Proof.Machine

section
variable {k : Nat} {s t : State}

/-- What the opening of an access leads to: the body runs in `t` (44_chip_icr_sdr_ports.md R231). -/
def OpensTo (k : Nat) (s t : State) : Prop := s.fault = none ∧ ∀ body : State → Result, accessChip k s body = body t

/-- A register read runs to its end in the state the opening leads to. -/
theorem OpensTo.perform_accessChip (h : OpensTo k s t) (body : State → Result) :
    perform s (fun s => accessChip k s body) = .next (conclude s (body t)) := by
  rw [perform_of_none h.1, h.2]

/-- A read with no effect of its own changes nothing beyond the opening. -/
theorem OpensTo.perform_readChip (h : OpensTo k s t) (value : State → Byte) :
    perform s (readChip k value) = .next (t.answer (.byte (value t))) :=
  h.perform_accessChip _

/-- `CHIP_PEEK` answers the register's byte and changes nothing beyond the opening (44_chip_icr_sdr_ports.md R219). -/
theorem exec_chipPeek (h : OpensTo k s t) (r : Reg) :
    exec (.chipPeek k r) s = .next (t.answer (.byte ((t.chip k).peek r t.clk))) :=
  h.perform_readChip _

/-- `CHIP_READ` answers the byte that `CHIP_PEEK` does, whatever effect it has besides (20_memory.md R68, R69). -/
theorem exec_chipReadOf (h : OpensTo k s t) (r : Reg) :
    ∃ u : State, exec (chipReadOf k r) s = .next (u.answer (.byte ((t.chip k).peek r t.clk))) := by
  cases r with
  | pra | prb | ddra | ddrb | talo | tahi | tblo | tbhi | sdr | cra | crb => exact ⟨t, h.perform_readChip _⟩
  | tod10 => exact ⟨todRead k .tenths t, h.perform_accessChip _⟩
  | todsec => exact ⟨todRead k .seconds t, h.perform_accessChip _⟩
  | todmin => exact ⟨todRead k .minutes t, h.perform_accessChip _⟩
  | todhr => exact ⟨todRead k .hours t, h.perform_accessChip _⟩
  | icr => exact ⟨clearFlags k t, h.perform_accessChip _⟩

end

/-- Settles O39: the opening of both operations leads to one state, and both answer the byte `Chip.peek` of it. -/
theorem peekIsReadWithoutEffects : Obligations.PeekIsReadWithoutEffects := by
  unfold Obligations.PeekIsReadWithoutEffects
  intro s k hready hk
  obtain ⟨t, haccessed, hbody⟩ := accessChip_of_ready hready hk
  have hopens : OpensTo k s t := ⟨hready.no_fault, hbody⟩
  refine ⟨t, haccessed, fun r => ?_⟩
  obtain ⟨u, hread⟩ := exec_chipReadOf hopens r
  exact ⟨_, _, exec_chipPeek hopens r, hread, rfl, rfl⟩

end Sys2Proof.Machine
end

section
/-! A reconciliation depends on the parameters, its chip and its chip's slots alone: from two states that agree on these
it goes to two states that agree on these (43_chip_timers.md R163 to R166). -/

namespace Sys2Proof.Machine

/-- The two states have the same parameters, chip `k` and channel slots of chip `k`. -/
structure SameChip (k : Nat) (s s' : State) : Prop where
  cfg : s'.cfg = s.cfg
  chips_length : s'.chips.length = s.chips.length
  alarms_length : s'.alarms.length = s.alarms.length
  chip : s'.chip k = s.chip k
  slot : ∀ x, s'.alarm (slotOf k x) = s.alarm (slotOf k x)

section
variable {k : Nat} {s s' s'' : State}

theorem SameChip.refl (k : Nat) (s : State) : SameChip k s s := ⟨rfl, rfl, rfl, rfl, fun _ => rfl⟩

theorem SameChip.trans (h : SameChip k s s') (g : SameChip k s' s'') : SameChip k s s'' :=
  ⟨g.cfg.trans h.cfg, g.chips_length.trans h.chips_length, g.alarms_length.trans h.alarms_length,
    g.chip.trans h.chip, fun x => (g.slot x).trans (h.slot x)⟩

theorem SameChip.symm (h : SameChip k s s') : SameChip k s' s :=
  ⟨h.cfg.symm, h.chips_length.symm, h.alarms_length.symm, h.chip.symm, fun x => (h.slot x).symm⟩

/-- Work on another chip is none on this one (20_memory.md R73). -/
theorem OnlyChip.sameChip {j : Nat} (h : OnlyChip j s s') (hj : k ≠ j) : SameChip k s s' :=
  ⟨h.cfg, h.chips_length, h.alarms_length, h.chip k hj, (h.alarm_of_ne hj).1⟩

/-! ### The parts of a reconciliation -/

theorem SameChip.setChip (h : SameChip k s s') (c : Chip) : SameChip k (s.setChip k c) (s'.setChip k c) where
  cfg := h.cfg
  chips_length := by simpa using h.chips_length
  alarms_length := h.alarms_length
  chip := by
    by_cases hk : k < s.chips.length
    · rw [State.chip_setChip_self s c hk, State.chip_setChip_self s' c (by rwa [h.chips_length])]
    · have hk' := Nat.le_of_not_lt hk
      rw [State.setChip_eq_self_of_le c hk', State.setChip_eq_self_of_le c (by rwa [h.chips_length]), h.chip]
  slot := h.slot

theorem SameChip.setChan (h : SameChip k s s') (x : Channel) (ch : Chan) :
    SameChip k (s.setChan k x ch) (s'.setChan k x ch) := by
  unfold State.setChan
  rw [h.chip]
  exact h.setChip _

theorem SameChip.setCtl (h : SameChip k s s') (x : Channel) (v : Byte) :
    SameChip k (s.setCtl k x v) (s'.setCtl k x v) := by
  unfold State.setCtl
  rw [h.chip]
  exact h.setChip _

theorem SameChip.setAlarm (h : SameChip k s s') (a : Nat) (al : Alarm) :
    SameChip k (s.setAlarm a al) (s'.setAlarm a al) where
  cfg := h.cfg
  chips_length := h.chips_length
  alarms_length := by simpa [State.setAlarm] using h.alarms_length
  chip := h.chip
  slot := fun x => by rw [State.alarm_setAlarm, State.alarm_setAlarm, h.alarms_length, h.slot]

/-- The source bit and the line stamps are none of it. -/
theorem sameChip_updateLine (k : Nat) (e : Cycle) (s : State) : SameChip k s (updateLine k e s) :=
  ⟨aggSet_cfg k _ e s, by rw [updateLine_chips], by rw [updateLine_alarms], State.chip_updateLine k e s k,
    fun _ => State.alarm_eq_of_alarms_eq (updateLine_alarms k e s) _⟩

theorem SameChip.updateLine (h : SameChip k s s') (e : Cycle) : SameChip k (updateLine k e s) (updateLine k e s') :=
  ((sameChip_updateLine k e s).symm.trans h).trans (sameChip_updateLine k e s')

theorem SameChip.setFlag (h : SameChip k s s') (bit : Byte) (e : Cycle) :
    SameChip k (setFlag k bit e s) (setFlag k bit e s') := by
  unfold Machine.setFlag readWon
  rw [h.cfg, h.chip]
  split
  · exact h
  · exact (h.setChip _).updateLine e

theorem SameChip.shiftEvents (h : SameChip k s s') (n e0 P : Nat) :
    SameChip k (shiftEvents k n e0 P s) (shiftEvents k n e0 P s') := by
  unfold Machine.shiftEvents
  dsimp only
  rw [h.cfg, h.chip]
  split
  · exact h
  · split <;> split
    · exact (h.setChip _).setFlag _ _
    · exact h.setChip _
    · exact (h.setChip _).setFlag _ _
    · exact h.setChip _

theorem SameChip.stopOneShot (h : SameChip k s s') (x : Channel) :
    SameChip k (stopOneShot k x s) (stopOneShot k x s') := by
  unfold Machine.stopOneShot
  rw [h.chip]
  split
  · exact h.setCtl x _
  · exact h

theorem SameChip.countOne {underflow : State → State} (h : SameChip k s s') (x : Channel)
    (hu : ∀ {s s'}, SameChip k s s' → SameChip k (underflow s) (underflow s')) :
    SameChip k (countOne underflow k x s) (countOne underflow k x s') := by
  unfold Machine.countOne
  dsimp only
  rw [h.chip]
  split
  · exact hu ((h.setChan x _).stopOneShot x)
  · exact h.setChan x _

theorem SameChip.countLoop {underflow : Nat → State → State} (h : SameChip k s s') (x : Channel) (mode : ChanState)
    (P n e : Nat) (hu : ∀ e {s s'}, SameChip k s s' → SameChip k (underflow e s) (underflow e s')) :
    SameChip k (countLoop underflow k x mode P n e s) (countLoop underflow k x mode P n e s') := by
  induction n generalizing e s s' with
  | zero => exact h
  | succ n ih =>
    unfold Machine.countLoop
    rw [h.chip]
    split
    · exact h
    · exact ih (h.countOne x (hu e)) _

theorem SameChip.clockShift (h : SameChip k s s') (n e0 P : Nat) :
    SameChip k (clockShift k n e0 P s) (clockShift k n e0 P s') := by
  unfold Machine.clockShift
  rw [h.chip]
  split
  · exact h.shiftEvents n e0 P
  · exact h

theorem SameChip.cascade (h : SameChip k s s') (n e0 P : Nat) :
    SameChip k (cascade k n e0 P s) (cascade k n e0 P s') := by
  unfold Machine.cascade
  rw [h.chip]
  split
  · exact h.countLoop .B _ P n e0 fun e _ _ h => h.setFlag _ _
  · exact h

theorem SameChip.underflowEffects (h : SameChip k s s') (x : Channel) (n e0 P : Nat) :
    SameChip k (underflowEffects k x n e0 P s) (underflowEffects k x n e0 P s') := by
  cases x with
  | A => exact ((h.setFlag _ _).clockShift n e0 P).cascade n e0 P
  | B => exact h.setFlag _ _

theorem SameChip.catchUpEffects (h : SameChip k s s') (x : Channel) (c : Cycle) :
    SameChip k (catchUpEffects k x c s) (catchUpEffects k x c s') := by
  unfold Machine.catchUpEffects takeUnderflows
  rw [h.chip]
  exact (((h.stopOneShot x).setChan x _).setAlarm _ _).underflowEffects x _ _ _

theorem SameChip.chanCatchUp {t' : State} (h : SameChip k s s') {x : Channel} {c : Cycle}
    (h' : chanCatchUp k x c s' = .ok t') : ∃ t, chanCatchUp k x c s = .ok t ∧ SameChip k t t' := by
  rcases chanCatchUp_cases h' with ⟨hdue, rfl⟩ | ⟨hdue, hfits, rfl⟩
  · rw [h.chip] at hdue
    exact ⟨s, chanCatchUp_of_not_due hdue, h⟩
  · rw [h.chip] at hdue hfits
    exact ⟨_, chanCatchUp_of_due hdue hfits, h.catchUpEffects x c⟩

theorem SameChip.storeLive (h : SameChip k s s') (c : Cycle) : SameChip k (storeLive k c s) (storeLive k c s') := by
  unfold Machine.storeLive
  dsimp only
  rw [h.chip]
  exact h.setChip _

/-- Reconciliation depends on the parameters, its chip and its chip's slots alone (43_chip_timers.md R166). -/
theorem SameChip.updateTo {t' : State} (h : SameChip k s s') {c : Cycle} (h' : updateTo k c s' = .ok t') :
    ∃ t, updateTo k c s = .ok t ∧ SameChip k t t' := by
  obtain ⟨hrc, s₁', s₂', hA', hB', rfl⟩ := updateTo_eq_ok.mp h'
  obtain ⟨s₁, hA, h₁⟩ := h.chanCatchUp hA'
  obtain ⟨s₂, hB, h₂⟩ := h₁.chanCatchUp hB'
  rw [h.chip] at hrc
  exact ⟨_, updateTo_eq_ok.mpr ⟨hrc, s₁, s₂, hA, hB, rfl⟩, h₂.storeLive c⟩

end

end Sys2Proof.Machine
end

section
/-! A dispatch reconciles each chip with a due channel slot once, at `clk`, and no other chip; a due tick comes after
that and changes the running clock and the alarm flag alone (41_alarm_scheduler.md R128, R129; 45_chip_tod.md R243). -/

namespace Sys2Proof.Machine

/-- A channel slot of chip `k` is due (41_alarm_scheduler.md R128). -/
def State.channelDue (s : State) (k : Nat) : Bool :=
  (s.alarm (slotOf k .A)).due s.clk || (s.alarm (slotOf k .B)).due s.clk

theorem State.channelDue_eq_true {s : State} {k : Nat} :
    s.channelDue k = true ↔ ∃ x, (s.alarm (slotOf k x)).due s.clk = true := by
  rw [State.channelDue, Bool.or_eq_true]
  constructor
  · rintro (h | h)
    · exact ⟨.A, h⟩
    · exact ⟨.B, h⟩
  · rintro ⟨x, h⟩
    cases x
    · exact .inl h
    · exact .inr h

/-- `t` is what the reconciliation of chip `k` that a dispatch of `s` owes leads to (41_alarm_scheduler.md R129). -/
def OwedReconciliation (k : Nat) (s t : State) : Prop :=
  if s.channelDue k then updateTo k s.clk s = .ok t else t = s

/-- Chip `k` has been reconciled as in `t`; since then its clock may have ticked, and none of its channels is due. -/
structure ReconciledAs (k : Nat) (t m : State) : Prop where
  ticked : ChipTicked (t.chip k) (m.chip k)
  slot : ∀ x, m.alarm (slotOf k x) = t.alarm (slotOf k x)
  not_due : ∀ x, (m.alarm (slotOf k x)).due m.clk = false

/-- How far a dispatch of `s` has come with chip `k` in the state `m`: its reconciliation is to come and nothing of it
has changed, or none is owed any more (41_alarm_scheduler.md R128). -/
def DispatchStage (k : Nat) (s m : State) : Prop :=
  (s.channelDue k = true ∧ SameChip k s m) ∨ ∃ t, OwedReconciliation k s t ∧ ReconciledAs k t m

section
variable {k : Nat} {s m m' : State}

theorem DispatchStage.start (k : Nat) (s : State) : DispatchStage k s s := by
  cases hdue : s.channelDue k with
  | true => exact .inl ⟨hdue, SameChip.refl k s⟩
  | false =>
    refine .inr ⟨s, by simp [OwedReconciliation, hdue], ChipTicked.refl _, fun _ => rfl, fun x => ?_⟩
    exact Bool.eq_false_iff.mpr fun hx => by simp [State.channelDue_eq_true.mpr ⟨x, hx⟩] at hdue

/-- A callback that is none of chip `k`'s leaves the stage as it is. -/
theorem DispatchStage.of_sameChip (h : DispatchStage k s m) (hsame : SameChip k m m') (hclk : m'.clk = m.clk) :
    DispatchStage k s m' := by
  rcases h with ⟨hdue, hs⟩ | ⟨t, ht, hticked, hslot, hnot⟩
  · exact .inl ⟨hdue, hs.trans hsame⟩
  · refine .inr ⟨t, ht, by rwa [hsame.chip], fun x => (hsame.slot x).trans (hslot x), fun x => ?_⟩
    rw [hsame.slot, hclk]
    exact hnot x

/-- The callback of a channel slot of chip `k` is the reconciliation that is owed (41_alarm_scheduler.md R129). -/
theorem DispatchStage.reconcile (h : DispatchStage k s m) (hm : m.Ready) (hk : k < m.cfg.nchip)
    (hclk : m.clk = s.clk) {x : Channel} (hdue : (m.alarm (slotOf k x)).due m.clk = true)
    (hupdate : updateTo k m.clk m = .ok m') : DispatchStage k s m' := by
  rcases h with ⟨hs, hsame⟩ | ⟨t, -, -, -, hnot⟩
  · obtain ⟨t, ht, hsame'⟩ := hsame.updateTo hupdate
    rw [hclk] at ht
    refine .inr ⟨t, by rwa [OwedReconciliation, if_pos hs], ?_, hsame'.slot, due_updateTo hm.inv hk hm.room hupdate⟩
    rw [hsame'.chip]
    exact ChipTicked.refl _
  · exact absurd hdue (by simp [hnot x])

/-- A tick of chip `k` fires only when no channel slot before it is due (41_alarm_scheduler.md R128, R131). -/
theorem DispatchStage.tick (h : DispatchStage k s m) (hclk : m.clk = s.clk) {T : Cycle}
    (hfirst : m.firstDue = some (todSlot k)) (htick : todTick k T m = .ok m') : DispatchStage k s m' := by
  obtain ⟨-, -, hbefore⟩ := State.firstDue_eq_some.mp hfirst
  rcases h with ⟨hs, hsame⟩ | ⟨t, ht, hticked, hslot, hnot⟩
  · obtain ⟨x, hx⟩ := State.channelDue_eq_true.mp hs
    have hlater := hbefore (slotOf k x) (slotOf_lt k x).2
    rw [hsame.slot, hclk, hx] at hlater
    cases hlater
  · have hkeep (x : Channel) : m'.alarm (slotOf k x) = m.alarm (slotOf k x) :=
      alarm_todTick htick (slotOf_ne_todSlot k k x)
    refine .inr ⟨t, ht, hticked.trans (chipTicked_todTick htick), fun x => (hkeep x).trans (hslot x), fun x => ?_⟩
    rw [hkeep, (OnlyChip.todTick htick).clk]
    exact hnot x

/-- An external slot is none of a chip's (10_state.md R25). -/
theorem sameChip_fire_external {a : Nat} (e : Event) (hk : k < s.cfg.nchip) (ha : 3 * s.cfg.nchip ≤ a) :
    SameChip k s (emit e (alarmUnset a s)) := by
  refine ⟨rfl, rfl, List.length_set .., rfl, fun x => State.alarm_setAlarm_ne s _ ?_⟩
  have := (slotOf_lt k x).2
  unfold todSlot at this
  omega

/-- Every callback of a dispatch brings the stage of each chip on (41_alarm_scheduler.md R128, R129). -/
theorem DispatchStage.fire {a overrun : Nat} (h : DispatchStage k s m) (hm : m.Ready) (hk : k < m.cfg.nchip)
    (hclk : m.clk = s.clk) (hfirst : m.firstDue = some a) (hfire : fire a overrun m = .ok m') :
    DispatchStage k s m' := by
  have hdue := (State.firstDue_eq_some.mp hfirst).2.1
  have hclk' := (DispatchKeeps.fire hdue hfire).clk
  rcases slot_cases a m.cfg.nchip with ⟨j, x, hj, rfl⟩ | ⟨j, hj, rfl⟩ | ha
  · rw [fire_slotOf hj] at hfire
    by_cases hjk : k = j
    · subst hjk
      exact h.reconcile hm hk hclk hdue hfire
    · exact h.of_sameChip ((OnlyChip.updateTo hfire).sameChip hjk) hclk'
  · rw [fire_todSlot hj] at hfire
    by_cases hjk : k = j
    · subst hjk
      exact h.tick hclk hfirst hfire
    · exact h.of_sameChip ((OnlyChip.todTick hfire).sameChip hjk) hclk'
  · rw [fire_external (Nat.not_lt_of_le ha)] at hfire
    cases hfire
    exact h.of_sameChip (sameChip_fire_external _ hk ha) rfl

/-- At the end of a dispatch every chip with a due channel slot has been reconciled at `clk`, and no other
(41_alarm_scheduler.md R128, R129). -/
theorem dispatch_reconciles {n : Nat} (hready : s.Ready) (hk : k < s.cfg.nchip) (h : dispatch s = .ok (m, n)) :
    ∃ t, OwedReconciliation k s t ∧ ReconciledAs k t m := by
  obtain ⟨⟨-, hkeeps, hstage⟩, hend⟩ := dispatchLoop_keeps
    (P := fun m => m.Ready ∧ DispatchKeeps s m ∧ DispatchStage k s m)
    (fun m m' a hm hfirst hfire => by
      obtain ⟨hm, hkeeps, hstage⟩ := hm
      have hdue := (State.firstDue_eq_some.mp hfirst).2.1
      exact ⟨ready_fire hm hdue hfire, hkeeps.trans (DispatchKeeps.fire hdue hfire),
        hstage.fire hm (by rwa [hkeeps.cfg]) hkeeps.clk hfirst hfire⟩)
    ⟨hready, DispatchKeeps.refl s, DispatchStage.start k s⟩ h
  rcases hstage with ⟨hs, hsame⟩ | hdone
  · obtain ⟨x, hx⟩ := State.channelDue_eq_true.mp hs
    have hnone := (State.firstDue_eq_none.mp hend).alarm (slotOf k x)
    rw [hsame.slot, hkeeps.clk, hx] at hnone
    cases hnone
  · exact hdone

end

end Sys2Proof.Machine
end

section
/-! The account that `Obligations.ReconcileFrame` gives of a reconciliation, put together from the lemmas about its
parts (43_chip_timers.md R161, R163, R164, R166). -/

namespace Sys2Proof.Machine

section
variable {k : Nat} {x : Channel} {c : Cycle} {s t : State}

theorem Chip.slotAfter_eq (chip : Chip) (x : Channel) (c : Cycle) :
    chip.slotAfter x c = if chip.oneShot x then ⟨false, never⟩ else ⟨true, chip.uAfter x c⟩ := by
  unfold Chip.slotAfter
  cases hshot : chip.oneShot x
  · rfl
  · rw [Chip.uAfter, hshot]
    rfl

/-- With no stored mask bit above the flags the summary needs no cut (10_state.md R38, R39). -/
theorem Chip.summary_of_mask_low {chip : Chip} (h : chip.mask &&& 0xF0 = 0) :
    chip.summary = decide (chip.flags &&& chip.mask ≠ 0) := by
  have hlow : chip.mask &&& 0x0F = chip.mask := by
    calc chip.mask &&& 0x0F = chip.mask &&& 0x0F ||| 0 := BitVec.or_zero.symm
      _ = chip.mask &&& (0x0F ||| 0xF0) := by rw [BitVec.and_or_distrib_left, h]
      _ = chip.mask := BitVec.and_allOnes
  rw [Chip.summary, BitVec.and_assoc, hlow]

/-- The source bit after a reconciliation (44_chip_icr_sdr_ports.md R214). -/
theorem source_updateTo (hinv : s.Inv) (hk : k < s.cfg.nchip) (h : updateTo k c s = .ok t) :
    t.source k = decide ((t.chip k).flags &&& (t.chip k).mask ≠ 0) := by
  have hwork := Reconciling.updateTo h
  rw [(hwork.tracked (hinv.tracked hk)).source_eq]
  exact Chip.summary_of_mask_low (by rw [hwork.kept.mask]; exact (hinv.chip k hk).mask_low)

/-- What a reconciliation makes of a due channel, its control register, its slot, its flag and its line, in a state that
meets the invariant (43_chip_timers.md R163, R164). -/
theorem reconcile_due (hinv : s.Inv) (hk : k < s.cfg.nchip) (hdue : (s.chip k).UnderflowDue x c)
    (h : updateTo k c s = .ok t) :
    (t.chip k).chan x = { (s.chip k).reloaded x c with
      cnt := if (s.chip k).oneShot x then ((s.chip k).chan x).latch
        else BitVec.ofNat 16 (min ((s.chip k).chan x).latch.toNat (((s.chip k).uAfter x c).toNat - c.toNat)) } ∧
    (t.chip k).ctl x = (s.chip k).ctlAfter x ∧
    t.alarm (slotOf k x) = (if (s.chip k).oneShot x then ⟨false, never⟩ else ⟨true, (s.chip k).uAfter x c⟩) ∧
    (t.chip k).flags &&& flagOf x = flagOf x ∧
    ((s.chip k).mask = flagOf x → s.level (s.lineOf k) = false →
      t.lineClk (s.lineOf k) = ((s.chip k).chan x).u) := by
  have hread := (hinv.chip k hk).lastRead_ne hdue.1
  obtain ⟨hchan, hctl, halarm⟩ := updateTo_due (hinv.chip_lt hk) (hinv.slotOf_lt hk x) hdue h
  exact ⟨hchan, hctl, halarm.trans (Chip.slotAfter_eq _ x c), updateTo_due_flag (hinv.chip_lt hk) hread hdue h,
    fun hmask hlow => updateTo_due_stamp (hinv.tracked hk) (hinv.source_lt hk) hread hdue hmask hlow h⟩

/-- A running channel whose underflow has not come only stores its live counter (43_chip_timers.md R161, R166). -/
theorem reconcile_running (hk : k < s.chips.length) (hrun : (s.chip k).chanState x = .running)
    (hlater : c < ((s.chip k).chan x).u) (h : updateTo k c s = .ok t) :
    (t.chip k).chan x = { (s.chip k).chan x with
      cnt := BitVec.ofNat 16 (min ((s.chip k).chan x).cnt.toNat (((s.chip k).chan x).u.toNat - c.toNat)) } := by
  have hcasc : ¬(s.chip k).Cascaded x := fun hx => nomatch hx.2.symm.trans hrun
  have hdue : ¬(s.chip k).UnderflowDue x c := fun hx => Nat.not_le_of_lt hlater hx.2
  obtain ⟨hchan, -⟩ := updateTo_not_due hk hcasc hdue h
  rw [hchan, Chip.live_of_running hrun]

/-- A channel that counts no cycles and no underflows is left alone (43_chip_timers.md R166). -/
theorem reconcile_idle (hk : k < s.chips.length) (hidle : (s.chip k).chanState x ≠ .running)
    (hcasc : ¬(s.chip k).Cascaded x) (h : updateTo k c s = .ok t) : (t.chip k).chan x = (s.chip k).chan x := by
  obtain ⟨hchan, -⟩ := updateTo_not_due hk hcasc (fun hx => hidle hx.1) h
  rw [hchan, Chip.live_of_idle hidle]

/-- The frame of a reconciliation (20_memory.md R67, R73). -/
theorem updateTo_frame (h : updateTo k c s = .ok t) :
    OnlyChip k s t ∧ ChipKept (s.chip k) (t.chip k) ∧ (t.chip k).tod = (s.chip k).tod ∧ t.draws = s.draws ∧
      t.alarm (todSlot k) = s.alarm (todSlot k) := by
  have hwork := Reconciling.updateTo h
  exact ⟨hwork.only, hwork.kept, hwork.tod, updateTo_draws h, hwork.alarm_tod⟩

end

/-- Settles O50: the frame is `updateTo_frame`; the account of a channel is by whether its underflow has come, whether
it runs and whether it is cascaded; of a dispatch it is `dispatch_reconciles`. -/
theorem reconcileFrame : Obligations.ReconcileFrame := by
  unfold Obligations.ReconcileFrame
  refine ⟨fun s s' k c h => updateTo_frame h, fun s k c hinv hk hrc hroom => ?_, fun s s₁ k hready hk hdispatch => ?_⟩
  · obtain ⟨t, ht⟩ := updateTo_total hrc (by omega)
    refine ⟨t, ht, source_updateTo hinv hk ht, fun x => ?_⟩
    have hdue (hrun : (s.chip k).chanState x = .running) (hu : ((s.chip k).chan x).u ≤ c) :=
      reconcile_due hinv hk ⟨hrun, hu⟩ ht
    have hlater := reconcile_running (x := x) (hinv.chip_lt hk) (h := ht)
    have hidle := reconcile_idle (x := x) (hinv.chip_lt hk) (h := ht)
    have hrest (hnot : ¬(s.chip k).UnderflowDue x c) (hcasc : ¬(s.chip k).Cascaded x) :=
      (updateTo_not_due (hinv.chip_lt hk) hcasc hnot ht).2
    cases x <;> exact ⟨hdue, hlater, hidle, hrest⟩
  · obtain ⟨n, h⟩ := hdispatch
    obtain ⟨t, howed, hticked, hslot, -⟩ := dispatch_reconciles hready hk h
    exact ⟨t, howed, hticked.rest, hticked.flags, hslot .A, hslot .B⟩

end Sys2Proof.Machine
end

section
/-! The command word as its fields (30_encoding.md R80, R82): a word is the concatenation of its three fields, a mask
acts on each field by itself, and what the encoder writes into `SEL` and `DATA` from the decoder's operands is that field
with its ignored bits cleared. -/

namespace Sys2Proof

/-! ### The word -/

theorem cmdWord_fields (w : CmdWord) : cmdWord (opField w) (selField w) (dataField w) = w := by
  have hhigh : opField w ++ selField w = w.extractLsb' 32 16 :=
    BitVec.extractLsb'_append_extractLsb'_eq_extractLsb' rfl
  rw [cmdWord, hhigh]
  exact BitVec.extractLsb'_append_extractLsb' (w := 16) (len := 32)

theorem cmdWord_and (op op' sel sel' : BitVec 8) (data data' : BitVec 32) :
    cmdWord op sel data &&& cmdWord op' sel' data' = cmdWord (op &&& op') (sel &&& sel') (data &&& data') :=
  BitVec.and_append.trans (congrArg (· ++ _) BitVec.and_append)

/-- A word with the bits outside `OP` and two masks cleared, put together from its fields. -/
theorem cmdWord_eq_and {w used : CmdWord} {op sel selMask : BitVec 8} {data dataMask : BitVec 32}
    (hop : (opField w).toNat = op.toNat) (hsel : sel = selField w &&& selMask) (hdata : data = dataField w &&& dataMask)
    (hused : used = cmdWord 0xFF selMask dataMask) : cmdWord op sel data = w &&& used := by
  have hop : op = opField w &&& 0xFF := (BitVec.eq_of_toNat_eq hop.symm).trans BitVec.and_allOnes.symm
  calc cmdWord op sel data
    _ = cmdWord (opField w) (selField w) (dataField w) &&& cmdWord 0xFF selMask dataMask := by
      rw [cmdWord_and, ← hop, ← hsel, ← hdata]
    _ = w &&& used := by rw [cmdWord_fields, hused]

/-! ### `SEL` -/

theorem chipFits_chipNumber (w : CmdWord) : chipFits (chipNumber w) := BitVec.isLt _

theorem selFits_selNumber (w : CmdWord) : selFits (selNumber w) := BitVec.isLt _

theorem selOfNumber_selNumber (w : CmdWord) : selOfNumber (selNumber w) = selField w := by
  rw [selOfNumber, selNumber, BitVec.ofNat_toNat, BitVec.setWidth_eq]

theorem selChipReg_fields (w : CmdWord) : selChipReg (chipNumber w) (regIndex w) = selField w := by
  rw [selChipReg, chipNumber, BitVec.ofNat_toNat, BitVec.setWidth_eq]
  exact BitVec.extractLsb'_append_extractLsb' (w := 4) (len := 4)

/-- A mask that keeps the chip number masks the register index. -/
theorem selField_and (w : CmdWord) (mask : BitVec 4) :
    selField w &&& (0xF#4 ++ mask) = selChipReg (chipNumber w) (regIndex w &&& mask) := by
  rw [← selChipReg_fields, selChipReg, selChipReg, BitVec.and_append]
  exact congrArg (· ++ _) BitVec.and_allOnes

theorem selChip_chipNumber (w : CmdWord) : selChip (chipNumber w) = selField w &&& 0xF0 := by
  rw [show (0xF0 : BitVec 8) = 0xF#4 ++ 0#4 from rfl, selField_and, BitVec.and_zero]
  rfl

theorem selBit_eq_regIndex (w : CmdWord) : selBit w = (regIndex w).getLsbD 0 := by
  simp [selBit, regIndex]

theorem lowBit_of_nibble (i : BitVec 4) : 0#3 ++ BitVec.ofBool (i.getLsbD 0) = i &&& 1#4 := by
  revert i
  decide

theorem PortId.bit_ofBit (b : Bool) : (PortId.ofBit b).bit = b := by cases b <;> rfl

theorem Line.bit_ofBit (b : Bool) : (Line.ofBit b).bit = b := by cases b <;> rfl

theorem selChipPort_fields (w : CmdWord) :
    selChipPort (chipNumber w) (PortId.ofBit (selBit w)) = selField w &&& 0xF1 := by
  rw [show (0xF1 : BitVec 8) = 0xF#4 ++ 1#4 from rfl, selField_and, ← lowBit_of_nibble, ← selBit_eq_regIndex,
    selChipPort, PortId.bit_ofBit]

theorem selOfBit_selBit (w : CmdWord) : selOfBit (selBit w) = selField w &&& 0x01 := by
  have hlow : selOfBit (selBit w) = 0#4 ++ (regIndex w &&& 1#4) := by
    rw [← lowBit_of_nibble, ← selBit_eq_regIndex]
    cases selBit w <;> rfl
  rw [hlow, ← selChipReg_fields w, show (0x01 : BitVec 8) = 0#4 ++ 1#4 from rfl, selChipReg, BitVec.and_append,
    BitVec.and_zero]

/-! ### `DATA` -/

theorem dataOfByte_dataByte (w : CmdWord) : dataOfByte (dataByte w) = dataField w &&& 0xFF := by
  have hsplit : (dataField w).extractLsb' 8 24 ++ dataByte w = dataField w :=
    BitVec.extractLsb'_append_extractLsb' (w := 24) (len := 8)
  calc dataOfByte (dataByte w)
    _ = ((dataField w).extractLsb' 8 24 &&& 0#24) ++ (dataByte w &&& 0xFF#8) := by
      rw [BitVec.and_zero, dataOfByte, show (0xFF#8) = BitVec.allOnes 8 from rfl, BitVec.and_allOnes]
    _ = dataField w &&& 0xFF := by rw [← BitVec.and_append, hsplit]; rfl

/-! ### The register operations, one law for sixteen rows (30_encoding.md R85) -/

theorem encode_chipReadOf (k : Nat) (r : Reg) : encode (chipReadOf k r) = encodeRead k r := by cases r <;> rfl

theorem encode_chipWriteOf (k : Nat) (r : Reg) (v : Byte) : encode (chipWriteOf k r v) = encodeWrite k r v := by
  cases r <;> rfl

theorem wellFormed_chipReadOf {k : Nat} (h : chipFits k) (r : Reg) : (chipReadOf k r).WellFormed := by
  cases r <;> exact decide_eq_true h

theorem wellFormed_chipWriteOf {k : Nat} (h : chipFits k) (r : Reg) (v : Byte) : (chipWriteOf k r v).WellFormed := by
  cases r <;> exact decide_eq_true h

theorem usedBits_chipReadOf (k : Nat) (r : Reg) : usedBits (chipReadOf k r) = cmdWord 0xFF 0xFF 0 := by
  cases r <;> rfl

theorem usedBits_chipWriteOf (k : Nat) (r : Reg) (v : Byte) : usedBits (chipWriteOf k r v) = cmdWord 0xFF 0xFF 0xFF := by
  cases r <;> rfl

theorem decode_encodeRead {k : Nat} (h : chipFits k) (r : Reg) : decode (encodeRead k r) = .ok (chipReadOf k r) := by
  simp [decode, encodeRead, opField_cmdWord, chipNumber_cmdWord, h, regIndex_cmdWord, Reg.ofIndex_index]

theorem decode_encodeWrite {k : Nat} (h : chipFits k) (r : Reg) (v : Byte) :
    decode (encodeWrite k r v) = .ok (chipWriteOf k r v) := by
  simp [decode, encodeWrite, opField_cmdWord, chipNumber_cmdWord, h, regIndex_cmdWord, Reg.ofIndex_index,
    dataByte_dataOfByte]

end Sys2Proof
end

section
/-! Decoding and encoding are inverse to each other, but for the bits a word's operation ignores (30_encoding.md R82,
R84). -/

namespace Sys2Proof

/-! ### From an operation to its word and back -/

theorem decode_encode {i : Instr} (h : i.WellFormed) : decode (encode i) = .ok i := by
  have chip {k : Nat} (hk : decide (chipFits k) = true) : chipFits k := of_decide_eq_true hk
  cases i with
  | domainReset | clkRead | guardTick | alarmNext | dispatch | clkAdvance n =>
    simp [encode, decode, opField_cmdWord, dataField_cmdWord]
  | chipReset k | extPulse k | snapSave k | snapRestore k | chipUpdate k cycle =>
    simp [encode, decode, opField_cmdWord, chipNumber_selChip _ _ (chip h), dataField_cmdWord]
  | alarmSet n e | alarmUnset n | alarmRead n | irqAssert n e | irqDeassert n e =>
    simp [encode, decode, opField_cmdWord, selNumber_cmdWord _ _ (of_decide_eq_true h : selFits n), dataField_cmdWord]
  | irqQuery l e | irqCpumask m | irqStamp l =>
    simp [encode, decode, opField_cmdWord, selBit_selOfBit, Line.ofBit_bit, dataField_cmdWord]
  | portIn k p v | portOut k p =>
    simp [encode, decode, opField_cmdWord, chipNumber_selChipPort _ _ _ (chip h), selBit_selChipPort, PortId.ofBit_bit,
      dataByte_dataOfByte]
  | chipPeek k r =>
    simp [encode, decode, opField_cmdWord, chipNumber_cmdWord _ _ _ (chip h), regIndex_cmdWord, Reg.ofIndex_index]
  | chipReadPra k | chipReadPrb k | chipReadDdra k | chipReadDdrb k | chipReadTalo k | chipReadTahi k | chipReadTblo k
  | chipReadTbhi k | chipReadTod10 k | chipReadTodsec k | chipReadTodmin k | chipReadTodhr k | chipReadSdr k
  | chipReadIcr k | chipReadCra k | chipReadCrb k =>
    exact decode_encodeRead (chip h) _
  | chipWritePra k v | chipWritePrb k v | chipWriteDdra k v | chipWriteDdrb k v | chipWriteTalo k v
  | chipWriteTahi k v | chipWriteTblo k v | chipWriteTbhi k v | chipWriteTod10 k v | chipWriteTodsec k v
  | chipWriteTodmin k v | chipWriteTodhr k v | chipWriteSdr k v | chipWriteIcr k v | chipWriteCra k v
  | chipWriteCrb k v =>
    exact decode_encodeWrite (chip h) _ v

/-- Settles O1: the encoder's fields read back as the operands, form by form. -/
theorem decodeOfEncode : Obligations.DecodeOfEncode := by
  unfold Obligations.DecodeOfEncode
  exact fun _ h => decode_encode h

theorem decode_of_encode_eq {w : CmdWord} {i : Instr} (hi : i.WellFormed) (hw : encode i = w) : decode w = .ok i :=
  hw ▸ decode_encode hi

/-- Settles O3: each sample word is the encoding of its operation. -/
theorem sampleWordsDecode : Obligations.SampleWordsDecode := by
  unfold Obligations.SampleWordsDecode
  refine ⟨?_, ?_, ?_, ?_, ?_, ?_, ?_, ?_⟩
  all_goals exact decode_of_encode_eq rfl rfl

/-! ### From a word to its operation and back -/

/-- What a word decodes to is well-formed, and assembles to the word with the bits it ignores cleared. The cases are the
opcodes of 30_encoding.md R84 in the order of the table, gathered by the operands that their words hold. -/
theorem wellFormed_and_encode_of_decode {w : CmdWord} {i : Instr} (h : decode w = .ok i) :
    i.WellFormed ∧ encode i = w &&& usedBits i := by
  have hchip := decide_eq_true (chipFits_chipNumber w)
  have hnumber := decide_eq_true (selFits_selNumber w)
  have noSel : 0#8 = selField w &&& 0 := BitVec.and_zero.symm
  have noData : 0#32 = dataField w &&& 0 := BitVec.and_zero.symm
  have allSel : selField w = selField w &&& 0xFF := BitVec.and_allOnes.symm
  have allData : dataField w = dataField w &&& 0xFFFFFFFF := BitVec.and_allOnes.symm
  have chip := selChip_chipNumber w
  have number := (selOfNumber_selNumber w).trans allSel
  have register : selChipReg (chipNumber w) (Reg.ofIndex (regIndex w)).index = selField w &&& 0xFF := by
    rw [Reg.index_ofIndex, selChipReg_fields, ← allSel]
  have port := selChipPort_fields w
  have bit := selOfBit_selBit w
  have line : selOfBit (Line.ofBit (selBit w)).bit = selField w &&& 0x01 := by rw [Line.bit_ofBit, bit]
  have byte := dataOfByte_dataByte w
  unfold decode at h
  split at h <;> cases h
  -- no operand
  case h_1.refl hop | h_4.refl hop | h_5.refl hop | h_8.refl hop | h_10.refl hop =>
    exact ⟨rfl, cmdWord_eq_and hop noSel noData rfl⟩
  -- CLK_ADVANCE: a word
  case h_3.refl hop => exact ⟨rfl, cmdWord_eq_and hop noSel allData rfl⟩
  -- a chip
  case h_2.refl hop | h_22.refl hop | h_23.refl hop | h_24.refl hop =>
    exact ⟨hchip, cmdWord_eq_and hop chip noData rfl⟩
  -- CHIP_UPDATE: a chip and a cycle
  case h_19.refl hop => exact ⟨hchip, cmdWord_eq_and hop chip allData rfl⟩
  -- a slot or a source, and a cycle
  case h_6.refl hop | h_11.refl hop | h_12.refl hop => exact ⟨hnumber, cmdWord_eq_and hop number allData rfl⟩
  -- a slot
  case h_7.refl hop | h_9.refl hop => exact ⟨hnumber, cmdWord_eq_and hop number noData rfl⟩
  -- IRQ_QUERY, IRQ_CPUMASK, IRQ_STAMP: a selector bit
  case h_13.refl hop => exact ⟨rfl, cmdWord_eq_and hop line allData rfl⟩
  case h_14.refl hop => exact ⟨rfl, cmdWord_eq_and hop bit noData rfl⟩
  case h_15.refl hop => exact ⟨rfl, cmdWord_eq_and hop line noData rfl⟩
  -- CHIP_READ, CHIP_WRITE, CHIP_PEEK: a chip and a register
  case h_16.refl hop =>
    rw [encode_chipReadOf, usedBits_chipReadOf]
    exact ⟨wellFormed_chipReadOf (chipFits_chipNumber w) _, cmdWord_eq_and hop register noData rfl⟩
  case h_17.refl hop =>
    rw [encode_chipWriteOf, usedBits_chipWriteOf]
    exact ⟨wellFormed_chipWriteOf (chipFits_chipNumber w) _ _, cmdWord_eq_and hop register byte rfl⟩
  case h_18.refl hop => exact ⟨hchip, cmdWord_eq_and hop register noData rfl⟩
  -- PORT_IN, PORT_OUT: a chip and a port
  case h_20.refl hop => exact ⟨hchip, cmdWord_eq_and hop port byte rfl⟩
  case h_21.refl hop => exact ⟨hchip, cmdWord_eq_and hop port noData rfl⟩

/-- Settles O2: a mask acts on each field by itself, and the decoded operands assemble to the masked fields. -/
theorem encodeOfDecode : Obligations.EncodeOfDecode := by
  unfold Obligations.EncodeOfDecode
  exact fun _ _ h => wellFormed_and_encode_of_decode h

end Sys2Proof
end

section
/-! The fault state (30_encoding.md R88): every operation but `DOMAIN_RESET` goes through `perform`, which refuses in it,
and `DOMAIN_RESET` of a well-formed configuration completes from every state. -/

namespace Sys2Proof.Machine

/-! ### Refusal -/

/-- `DOMAIN_RESET` is the one operation that does not begin with the check for the fault state (60_exceptions.md R287). -/
theorem exec_eq_perform {i : Instr} (h : i ≠ .domainReset) : ∃ body : State → Result, ∀ s, exec i s = perform s body := by
  cases i with
  | domainReset => exact absurd rfl h
  | _ => exact ⟨_, fun _ => rfl⟩

theorem exec_of_fault {s : State} {f : FaultCode} {i : Instr} (hfault : s.fault = some f) (hi : i ≠ .domainReset) :
    exec i s = .next (refuseIn f s) := by
  obtain ⟨body, hbody⟩ := exec_eq_perform hi
  rw [hbody, perform_of_fault hfault]

theorem illegalWord_of_fault {s : State} {f : FaultCode} (hfault : s.fault = some f) :
    illegalWord s = .next (refuseIn f s) := perform_of_fault hfault _

/-- A word presented in the fault state leaves the port and is refused, whether it decodes or not. -/
theorem step_of_fault {s : State} {f : FaultCode} {p : Presented} {rest : List Presented} (hfault : s.fault = some f)
    (hport : s.port = p :: rest) (hp : decode p.word ≠ .ok .domainReset) :
    step s = .next (refuseIn f { s with port := rest, payloadIn := p.payload }) := by
  cases hdecode : decode p.word with
  | ok i =>
    have hi : i ≠ .domainReset := fun hi => hp (hdecode.trans (congrArg _ hi))
    rw [step_of_decode_ok hport hdecode]
    exact exec_of_fault hfault hi
  | error e =>
    rw [step_of_decode_error hport hdecode]
    exact illegalWord_of_fault hfault

/-! ### The way out -/

/-- A chip reset completes where the first tick fits below `NEVER` (70_reset_and_hazards.md R312). -/
theorem chipReset_total {k : Nat} {c : Cycle} {s : State} (h : c.toNat + s.cfg.todPeriod < neverNat) :
    ∃ s', chipReset k c s = .ok s' := by
  have harm := alarmSet_ok (a := todSlot k)
    (s := alarmUnset (slotOf k .B) (alarmUnset (slotOf k .A) (blankChip k c s))) h
  exact ⟨_, bind_eq_ok.mpr ⟨_, harm, rfl⟩⟩

/-- A loop of steps that succeed where `P` holds, and keep it, ends where `P` holds. -/
theorem forUpTo_total {f : Nat → State → Except FaultCode State} {P : State → Prop}
    (hf : ∀ k s, P s → ∃ s', f k s = .ok s' ∧ P s') (n : Nat) {s : State} (hs : P s) :
    ∃ s', forUpTo f n s = .ok s' ∧ P s' := by
  induction n with
  | zero => exact ⟨s, rfl, hs⟩
  | succ n ih =>
    obtain ⟨s₁, h₁, hP₁⟩ := ih
    obtain ⟨s₂, h₂, hP₂⟩ := hf n s₁ hP₁
    exact ⟨s₂, forUpTo_succ_eq_ok.mpr ⟨s₁, h₁, h₂⟩, hP₂⟩

/-- From every state a domain reset completes without a fault (70_reset_and_hazards.md R310). -/
theorem domainReset_total {s : State} (h : s.cfg.todPeriod < neverNat) :
    ∃ s', domainReset s = .ok s' ∧ s'.fault = none := by
  have hstep (k : Nat) (t : State) (ht : t.cfg = s.cfg ∧ t.fault = none) :
      ∃ t', chipReset k 0 t = .ok t' ∧ t'.cfg = s.cfg ∧ t'.fault = none := by
    obtain ⟨hcfg, hnone⟩ := ht
    obtain ⟨t', ht'⟩ := chipReset_total (k := k) (c := 0) (s := t) (by simpa [hcfg] using h)
    have honly := (chipReset_onlyChip ht').1
    exact ⟨t', ht', honly.cfg.trans hcfg, honly.fault.trans hnone⟩
  have hloop : ∃ s', domainReset s = .ok s' ∧ s'.cfg = s.cfg ∧ s'.fault = none :=
    forUpTo_total (P := fun t => t.cfg = s.cfg ∧ t.fault = none) hstep s.cfg.nchip ⟨rfl, rfl⟩
  obtain ⟨s', hreset, -, hnone⟩ := hloop
  exact ⟨s', hreset, hnone⟩

theorem exec_domainReset {s s' : State} (h : domainReset s = .ok s') :
    exec .domainReset s = .next (s'.answer .nothing) := by
  simp [exec, execDomainReset, h, Except.map]

/-- Settles O6: `perform` refuses in the fault state, and `DOMAIN_RESET` is the one operation that does not go through
it. -/
theorem faultStateRefuses : Obligations.FaultStateRefuses := by
  unfold Obligations.FaultStateRefuses
  intro s f hfault
  refine ⟨fun i hi => exec_of_fault hfault hi, fun p rest hport hp => step_of_fault hfault hport hp, fun hwf => ?_⟩
  obtain ⟨s', hreset, hnone⟩ := domainReset_total hwf.todPeriod_lt
  exact ⟨_, exec_domainReset hreset, hnone, rfl⟩

end Sys2Proof.Machine
end

section
/-! `CLK_ADVANCE` and `CLK_READ` (40_counter_guard.md R100, R101). -/

namespace Sys2Proof.Machine

theorem decode_clkAdvance {w : CmdWord} (h : opField w = 0x10) : decode w = .ok (.clkAdvance (dataField w)) := by
  unfold decode
  rw [h]
  rfl

theorem decode_clkRead {w : CmdWord} (h : opField w = 0x11) : decode w = .ok .clkRead := by
  unfold decode
  rw [h]
  rfl

/-- `CLK_ADVANCE` below `NEVER` (40_counter_guard.md R100). -/
theorem exec_clkAdvance_of_lt {s : State} {n : BitVec 32} (hfault : s.fault = none)
    (h : s.clk.toNat + n.toNat < neverNat) :
    exec (.clkAdvance n) s = .next (State.answer { s with clk := s.clk + n } .nothing) := by
  change execClkAdvance n s = _
  rw [execClkAdvance, perform_of_none hfault, cycleStore_ok h, BitVec.ofNat_add, BitVec.ofNat_toNat,
    BitVec.ofNat_toNat, BitVec.setWidth_eq, BitVec.setWidth_eq]
  rfl

/-- `CLK_ADVANCE` that would reach `NEVER` (40_counter_guard.md R100, R109). -/
theorem exec_clkAdvance_of_ge {s : State} {n : BitVec 32} (hfault : s.fault = none)
    (h : neverNat ≤ s.clk.toNat + n.toNat) :
    exec (.clkAdvance n) s = .next (takeFault .clockOverflow s) := by
  change execClkAdvance n s = _
  rw [execClkAdvance, perform_of_none hfault, cycleStore_eq_error.mpr ⟨h, rfl⟩]
  rfl

/-- Settles O16: `CycleStore` of the sum succeeds below `NEVER` and faults from there on. -/
theorem clkAdvanceAdds : Obligations.ClkAdvanceAdds := by
  unfold Obligations.ClkAdvanceAdds
  exact ⟨fun _ hop => decode_clkAdvance hop, fun _ _ hfault =>
    ⟨exec_clkAdvance_of_lt hfault, exec_clkAdvance_of_ge hfault⟩⟩

/-- `CLK_READ` answers the counter (40_counter_guard.md R101). -/
theorem exec_clkRead {s : State} (hfault : s.fault = none) : exec .clkRead s = .next (s.answer (.value s.clk)) := by
  change execClkRead s = _
  rw [execClkRead, perform_of_none hfault, conclude_ok]

/-- Settles O17: the body of `CLK_READ` answers the counter of the state it leaves alone. -/
theorem clkReadReturnsClk : Obligations.ClkReadReturnsClk := by
  unfold Obligations.ClkReadReturnsClk
  exact ⟨fun _ hop => decode_clkRead hop, fun _ hfault => exec_clkRead hfault⟩

end Sys2Proof.Machine
end

section
/-! Who writes the counter (40_counter_guard.md R102): chips, the scheduler and the aggregator read it; `CLK_ADVANCE`,
the
guard's rebase and `DOMAIN_RESET` write it. -/

namespace Sys2Proof.Machine

section
variable {k : Nat} {s t : State}

/-! ### Operations that leave the counter alone -/

/-- If `x` is the answer of a body run in `s`, it leaves the counter alone. -/
def KeepsClk (s : State) (x : Result) : Prop := ∀ s' r, x = .ok (s', r) → s'.clk = s.clk

theorem keepsClk_ok {s' : State} (h : s'.clk = s.clk) (r : Reply) : KeepsClk s (.ok (s', r)) := by
  intro u r' hu
  cases hu
  exact h

/-- A check, then the rest of the body. -/
theorem keepsClk_check {check : Except FaultCode Unit} {x : Result} (hx : KeepsClk s x) :
    KeepsClk s (check >>= fun _ => x) := by
  intro u r hu
  obtain ⟨-, -, hu⟩ := bind_eq_ok.mp hu
  exact hx u r hu

/-- A change that can fault, with nothing returned. -/
theorem keepsClk_effect {x : Except FaultCode State} (hx : ∀ s', x = .ok s' → s'.clk = s.clk) :
    KeepsClk s (x >>= fun s' => .ok (s', .nothing)) := by
  intro u r hu
  obtain ⟨s', hs', hu⟩ := bind_eq_ok.mp hu
  cases hu
  exact hx _ hs'

/-- A dispatch leaves the counter alone (40_counter_guard.md R102). -/
theorem keepsClk_afterDispatch {body : State → Result} (hbody : ∀ s, KeepsClk s (body s)) :
    KeepsClk s (afterDispatch s body) := by
  intro u r hu
  obtain ⟨s₁, n, hdispatch, hu⟩ := afterDispatch_eq_ok.mp hu
  rw [hbody s₁ u r hu, (DispatchKeeps.dispatch hdispatch).1.clk]

/-- Chips read the counter and never write it (40_counter_guard.md R102). -/
theorem keepsClk_onChip {body : State → Result} (hbody : ∀ s, WorksOnlyOn k s (body s)) :
    KeepsClk s (onChip k s body) :=
  keepsClk_check (keepsClk_afterDispatch fun s u r hu => (hbody s u r hu).clk)

theorem keepsClk_accessChip {body : State → Result} (hbody : ∀ s, WorksOnlyOn k s (body s)) :
    KeepsClk s (accessChip k s body) := by
  refine keepsClk_onChip fun s u r hu => ?_
  obtain ⟨s₂, hupdate, hu⟩ := bind_eq_ok.mp hu
  exact (OnlyChip.updateTo hupdate).trans (hbody s₂ u r hu)

theorem keepsClk_readChip (value : State → Byte) : KeepsClk s (readChip k value s) :=
  keepsClk_accessChip fun s => worksOnlyOn_ok (OnlyChip.refl k s) _

theorem keepsClk_writeChip {effect : State → State} (heffect : ∀ s, OnlyChip k s (effect s)) :
    KeepsClk s (writeChip k effect s) :=
  keepsClk_accessChip fun s => worksOnlyOn_ok (heffect s) _

theorem keepsClk_writeChipE {effect : State → Except FaultCode State}
    (heffect : ∀ s s', effect s = .ok s' → OnlyChip k s s') : KeepsClk s (writeChipE k effect s) :=
  keepsClk_accessChip fun s => worksOnlyOn_effect (heffect s)

/-- An operation that does not complete leaves the counter alone (60_exceptions.md R280, R287). -/
theorem perform_clk_cases {body : State → Result} (h : perform s body = .next t) :
    (∃ s' r, body s = .ok (s', r) ∧ t.clk = s'.clk) ∨ t.clk = s.clk := by
  rcases perform_cases s body with ⟨f, -, hend⟩ | ⟨-, s', r, hok, hend⟩ | ⟨-, f, -, hend⟩
  · cases hend.symm.trans h
    exact .inr rfl
  · cases hend.symm.trans h
    exact .inl ⟨s', r, hok, rfl⟩
  · cases hend.symm.trans h
    exact .inr rfl

theorem perform_clk {body : State → Result} (h : perform s body = .next t) (hbody : KeepsClk s (body s)) :
    t.clk = s.clk := by
  rcases perform_clk_cases h with ⟨s', r, hok, hclk⟩ | hclk
  · rw [hclk, hbody s' r hok]
  · exact hclk

theorem keepsClk_setSourceOp (n : Nat) (b : Bool) (e : Cycle) : KeepsClk s (setSourceOp n b e s) :=
  keepsClk_check (keepsClk_afterDispatch fun s => keepsClk_check (keepsClk_ok (aggSet_clk n b e s) _))

theorem execSnapRestore_clk (h : execSnapRestore k s = .next t) : t.clk = s.clk := by
  refine perform_clk h (keepsClk_check (keepsClk_onChip fun s => ?_))
  split
  · exact worksOnlyOn_ok (OnlyChip.refl k s) _
  · exact worksOnlyOn_effect fun _ h => OnlyChip.restoreFrom h

theorem execDispatch_clk (h : execDispatch s = .next t) : t.clk = s.clk := by
  refine perform_clk h fun s' r hs' => ?_
  obtain ⟨⟨s₁, n⟩, hdispatch, hs'⟩ := bind_eq_ok.mp hs'
  cases hs'
  exact (DispatchKeeps.dispatch hdispatch).1.clk

/-- No operation but three writes the counter (40_counter_guard.md R102). -/
theorem exec_clk {i : Instr} (hadvance : ∀ n, i ≠ .clkAdvance n) (hguard : i ≠ .guardTick) (hreset : i ≠ .domainReset)
    (h : exec i s = .next t) : t.clk = s.clk := by
  cases i <;> dsimp only [exec] at h
  case domainReset => exact absurd rfl hreset
  case clkAdvance n => exact absurd rfl (hadvance n)
  case guardTick => exact absurd rfl hguard
  case clkRead | alarmNext => exact perform_clk h (keepsClk_ok rfl _)
  case alarmRead | alarmUnset => exact perform_clk h (keepsClk_check (keepsClk_ok rfl _))
  case alarmSet =>
    refine perform_clk h (keepsClk_check (keepsClk_effect fun s' hs' => ?_))
    obtain ⟨-, rfl⟩ := alarmSet_eq_ok.mp hs'
    rfl
  case dispatch => exact execDispatch_clk h
  case irqAssert | irqDeassert => exact perform_clk h (keepsClk_setSourceOp _ _ _)
  case irqQuery => exact perform_clk h (keepsClk_afterDispatch fun s => keepsClk_check (keepsClk_ok rfl _))
  case irqCpumask | irqStamp => exact perform_clk h (keepsClk_afterDispatch fun s => keepsClk_ok rfl _)
  case chipReset =>
    exact perform_clk h (keepsClk_onChip fun _ => worksOnlyOn_effect fun _ h => (chipReset_onlyChip h).1)
  case chipReadPra | chipReadPrb | chipReadDdra | chipReadDdrb | chipReadTalo | chipReadTahi | chipReadTblo
      | chipReadTbhi | chipReadSdr | chipReadCra | chipReadCrb | chipPeek | portOut =>
    exact perform_clk h (keepsClk_readChip _)
  case chipReadTod10 k | chipReadTodsec k | chipReadTodmin k | chipReadTodhr k =>
    exact perform_clk h (keepsClk_accessChip fun s => worksOnlyOn_ok (OnlyChip.setChip k _ s) _)
  case chipReadIcr k =>
    exact perform_clk h (keepsClk_accessChip fun s => worksOnlyOn_ok (OnlyChip.setChip_updateLine k _ _ s) _)
  case chipWritePra k v | chipWritePrb k v | chipWriteDdra k v | chipWriteDdrb k v | chipWriteSdr k v =>
    exact perform_clk h (keepsClk_writeChip fun s => OnlyChip.setChip k _ s)
  case chipWriteTalo | chipWriteTahi | chipWriteTblo | chipWriteTbhi =>
    exact perform_clk h (keepsClk_writeChipE fun _ _ h => OnlyChip.writeLatchByte h)
  case chipWriteTod10 k v | chipWriteTodsec k v | chipWriteTodmin k v | chipWriteTodhr k v =>
    exact perform_clk h (keepsClk_writeChip fun s => OnlyChip.todWrite k _ _ s)
  case chipWriteIcr k v =>
    exact perform_clk h (keepsClk_writeChip fun s => OnlyChip.setChip_updateLine k _ _ s)
  case chipWriteCra | chipWriteCrb =>
    exact perform_clk h (keepsClk_writeChipE fun _ _ h => OnlyChip.writeControl h)
  case chipUpdate =>
    exact perform_clk h
      (keepsClk_onChip fun _ => worksOnlyOn_check (worksOnlyOn_effect fun _ h => OnlyChip.updateTo h))
  case portIn k p v => exact perform_clk h (keepsClk_onChip fun s => worksOnlyOn_ok (OnlyChip.setPortIn k p v s) _)
  case extPulse k =>
    exact perform_clk h
      (keepsClk_writeChip fun s => (OnlyChip.pulseChannel k .A s).trans (OnlyChip.pulseChannel k .B _))
  case snapSave k =>
    exact perform_clk h
      (keepsClk_check (keepsClk_accessChip fun s => worksOnlyOn_ok (OnlyChip.refl k s) _))
  case snapRestore => exact execSnapRestore_clk h

/-! ### The three writers -/

/-- `DOMAIN_RESET` zeroes the counter, or its configuration's tick cannot be stored and it faults
(70_reset_and_hazards.md R310). -/
theorem exec_domainReset_clk (h : exec .domainReset s = .next t) : t.clk = 0 ∨ t.clk = s.clk := by
  cases hreset : domainReset s with
  | ok s' =>
    rw [exec_domainReset hreset] at h
    cases h
    have hzero : s'.clk = 0 :=
      forUpTo_keeps (P := fun s => s.clk = 0) (fun _ _ _ hs h => ((chipReset_onlyChip h).1.clk).trans hs) rfl hreset
    exact .inl hzero
  | error f =>
    have hfault : exec .domainReset s = .next (takeFault f s) := by
      simp [exec, execDomainReset, hreset, Except.map]
    rw [hfault] at h
    cases h
    exact .inr rfl

/-- `CLK_ADVANCE` adds, or faults and leaves the counter (40_counter_guard.md R100). -/
theorem execClkAdvance_clk {n : BitVec 32} (h : execClkAdvance n s = .next t) :
    t.clk.toNat = s.clk.toNat + n.toNat ∨ t.clk = s.clk := by
  refine (perform_clk_cases h).imp_left ?_
  rintro ⟨s', r, hok, hclk⟩
  obtain ⟨c, hc, hok⟩ := bind_eq_ok.mp hok
  obtain ⟨hlt, rfl⟩ := cycleStore_eq_ok.mp hc
  cases hok
  rw [hclk]
  exact toNat_ofNat_cycle hlt

/-- The guard's rebase leaves the counter at `SAFE_BASE`, unless that is above it (40_counter_guard.md R103). -/
theorem guardRebase_clk {r : Reply} (h : guardRebase s = .ok (t, r)) :
    t.clk = BitVec.ofNat 32 s.cfg.safeBase ∨ t.clk = s.clk := by
  obtain ⟨s₁, hreconcile, h⟩ := bind_eq_ok.mp h
  obtain ⟨s₂, hrebase, h⟩ := bind_eq_ok.mp h
  cases h
  obtain ⟨-, rfl⟩ := rebaseAll_eq_ok.mp hrebase
  have hclk : s₁.clk = s.clk :=
    forUpTo_keeps (P := fun u => u.clk = s.clk) (fun _ _ _ hs h => (OnlyChip.updateTo h).clk.trans hs) rfl hreconcile
  change BitVec.ofNat 32 (s₁.clk.toNat - (s.clk.toNat - s.cfg.safeBase)) = _ ∨ _ = _
  rw [hclk]
  by_cases hbase : s.cfg.safeBase ≤ s.clk.toNat
  · exact .inl (by rw [Nat.sub_sub_self hbase])
  · refine .inr ?_
    rw [Nat.sub_eq_zero_of_le (Nat.le_of_not_le hbase)]
    simp

/-- `GUARD_TICK` writes the counter above the high-water mark alone (40_counter_guard.md R103). -/
theorem execGuardTick_clk (h : execGuardTick s = .next t) :
    (s.cfg.highWater < s.clk.toNat ∧ t.clk = BitVec.ofNat 32 s.cfg.safeBase) ∨ t.clk = s.clk := by
  rcases perform_clk_cases h with ⟨s', r, hok, hclk⟩ | hclk
  case inr => exact .inr hclk
  obtain ⟨s₁, n, hdispatch, hok⟩ := afterDispatch_eq_ok.mp hok
  have hkeeps := (DispatchKeeps.dispatch hdispatch).1
  rw [hclk, ← hkeeps.clk, ← hkeeps.cfg]
  split at hok
  case isTrue habove => exact (guardRebase_clk hok).imp_left fun hbase => ⟨habove, hbase⟩
  case isFalse =>
    cases hok
    exact .inr rfl

end

/-- Settles O15: the three operations that write the counter, each by what it writes. -/
theorem counterWritersAreThree : Obligations.CounterWritersAreThree := by
  unfold Obligations.CounterWritersAreThree
  intro s t i h hne
  by_cases hreset : i = .domainReset
  · subst hreset
    exact .inl ⟨rfl, (exec_domainReset_clk h).resolve_right hne⟩
  by_cases hguard : i = .guardTick
  · subst hguard
    exact .inr (.inr ⟨rfl, (execGuardTick_clk h).resolve_right hne⟩)
  by_cases hadvance : ∃ n, i = .clkAdvance n
  · obtain ⟨n, rfl⟩ := hadvance
    exact .inr (.inl ⟨n, rfl, (execClkAdvance_clk h).resolve_right hne⟩)
  · exact absurd (exec_clk (fun n hn => hadvance ⟨n, hn⟩) hguard hreset h) hne

end Sys2Proof.Machine
end

section
/-! What `RebaseAll` makes of each cached cycle value (40_counter_guard.md R106, R107). -/

namespace Sys2Proof.Machine

section
variable {sub : Nat} {c : Cycle}

theorem toNat_rebaseStamp (sub : Nat) (c : Cycle) : (rebaseStamp sub c).toNat = c.toNat - sub := by
  rw [rebaseStamp, BitVec.toNat_ofNat, Nat.mod_eq_of_lt]
  exact Nat.lt_of_le_of_lt (Nat.sub_le _ _) c.isLt

/-- A cycle that is not before the new origin is shifted (40_counter_guard.md R106). -/
theorem rebaseStamp_of_le (h : sub ≤ c.toNat) : rebaseStamp sub c = c - BitVec.ofNat 32 sub := by
  apply BitVec.eq_of_toNat_eq
  have hsub : (BitVec.ofNat 32 sub).toNat = sub := by
    rw [BitVec.toNat_ofNat, Nat.mod_eq_of_lt (Nat.lt_of_le_of_lt h c.isLt)]
  rw [toNat_rebaseStamp, BitVec.toNat_sub_of_le (by rw [BitVec.le_def, hsub]; exact h), hsub]

/-- An older one saturates at 0 (40_counter_guard.md R106). -/
theorem rebaseStamp_of_lt (h : c.toNat < sub) : rebaseStamp sub c = 0 := by
  rw [rebaseStamp, Nat.sub_eq_zero_of_le (Nat.le_of_lt h)]
  rfl

theorem rebaseStamp_eq_ite (sub : Nat) (c : Cycle) :
    rebaseStamp sub c = if sub ≤ c.toNat then c - BitVec.ofNat 32 sub else 0 := by
  split
  case isTrue h => exact rebaseStamp_of_le h
  case isFalse h => exact rebaseStamp_of_lt (Nat.lt_of_not_le h)

/-- A recorded read that is not before the new origin is shifted, an older one dropped (40_counter_guard.md R107). -/
theorem rebaseLastRead_eq (sub : Nat) (l : Option Cycle) :
    rebaseLastRead sub l =
      (l.filter fun r => decide (sub ≤ r.toNat)).map fun r => r - BitVec.ofNat 32 sub := by
  cases l with
  | none => rfl
  | some c =>
    rw [rebaseLastRead, Option.filter_some]
    by_cases h : sub ≤ c.toNat
    · rw [if_pos h, decide_eq_true h, if_pos rfl]
      exact congrArg some (rebaseStamp_of_le h)
    · rw [if_neg h, decide_eq_false h]
      rfl

/-- The next underflow of a running channel is shifted, that of any other stays `NEVER` (40_counter_guard.md R107). -/
theorem rebaseChan_eq {running : Bool} {ch : Chan} (hrun : running = true → sub ≤ ch.u.toNat)
    (hidle : running = false → ch.u = never) :
    rebaseChan sub running ch = { ch with u := if running then ch.u - BitVec.ofNat 32 sub else never } := by
  cases running with
  | true =>
    have hu : BitVec.ofNat 32 (ch.u.toNat - sub) = ch.u - BitVec.ofNat 32 sub := rebaseStamp_of_le (hrun rfl)
    simp [rebaseChan, hu]
  | false => simp [rebaseChan, ← hidle rfl]

/-- An armed slot is shifted, a disarmed one keeps `NEVER` (40_counter_guard.md R106). -/
theorem Alarm.rebase_eq {al : Alarm} (harmed : al.armed = true → sub ≤ al.target.toNat)
    (hdisarmed : al.armed = false → al.target = never) :
    al.rebase sub = if al.armed then ⟨true, al.target - BitVec.ofNat 32 sub⟩ else ⟨false, never⟩ := by
  obtain ⟨armed, target⟩ := al
  cases armed with
  | true => exact congrArg (Alarm.mk true) (rebaseStamp_of_le (harmed rfl))
  | false => exact congrArg (Alarm.mk false) (hdisarmed rfl)

end

/-- The chips of a state, one by one. -/
theorem State.chips_eq_map_chip (s : State) : s.chips = (List.range s.chips.length).map s.chip := by
  apply List.ext_getElem
  · simp
  · intro k hk hk'
    simp [State.chip, List.getD_eq_getElem?_getD, hk]

end Sys2Proof.Machine
end

section
/-! The guard above the high-water mark (40_counter_guard.md R103, R105): after the dispatch no underflow is left to
process, so reconciling a chip only stores its live counters, and the rebase finds every armed target after `clk`. -/

namespace Sys2Proof.Machine

section
variable {sub : Nat} {s t : State}

/-- The chips below `n` have their live values stored as of `clk`, the others not yet (43_chip_timers.md R166). -/
structure StoredBelow (n : Nat) (s t : State) : Prop where
  rest : t = { s with chips := t.chips }
  chips_length : t.chips.length = s.chips.length
  chip_lt : ∀ k < n, t.chip k = (storeLive k s.clk s).chip k
  chip_ge : ∀ k, n ≤ k → t.chip k = s.chip k

theorem chip_storeLive_congr {k : Nat} {c : Cycle} (hchip : t.chip k = s.chip k)
    (hlen : t.chips.length = s.chips.length) : (storeLive k c t).chip k = (storeLive k c s).chip k := by
  unfold storeLive
  dsimp only
  rw [hchip]
  by_cases hk : k < s.chips.length
  · rw [State.chip_setChip_self _ _ hk, State.chip_setChip_self _ _ (hlen ▸ hk)]
  · have hk := Nat.le_of_not_lt hk
    rw [State.setChip_eq_self_of_le _ hk, State.setChip_eq_self_of_le _ (hlen ▸ hk), hchip]

/-- The next chip's live values are stored (43_chip_timers.md R166). -/
theorem StoredBelow.storeLive {n : Nat} (h : StoredBelow n s t) : StoredBelow (n + 1) s (storeLive n t.clk t) := by
  have hclk : t.clk = s.clk := by rw [h.rest]
  have hother {k : Nat} (hk : k ≠ n) : (Machine.storeLive n t.clk t).chip k = t.chip k := State.chip_setChip_ne t _ hk
  refine ⟨?_, (OnlyChip.storeLive n t.clk t).chips_length.trans h.chips_length, fun k hk => ?_, fun k hk => ?_⟩
  · conv_lhs => rw [h.rest]
    rw [h.rest]
    rfl
  · by_cases hkn : k = n
    · subst hkn
      rw [hclk]
      exact chip_storeLive_congr (h.chip_ge k (Nat.le_refl k)) h.chips_length
    · rw [hother hkn, h.chip_lt k (by omega)]
  · rw [hother (by omega), h.chip_ge k (by omega)]

/-- With nothing due reconciling every chip stores the live values of every chip (40_counter_guard.md R105). -/
theorem reconcileAll_of_noneDue (hready : s.Ready) (hnone : s.NoneDue) :
    ∃ t, reconcileAll s = .ok t ∧ StoredBelow s.cfg.nchip s t := by
  have hloop (n : Nat) (hn : n ≤ s.cfg.nchip) :
      ∃ t, forUpTo (fun k s => updateTo k s.clk s) n s = .ok t ∧ StoredBelow n s t := by
    induction n with
    | zero => exact ⟨s, rfl, rfl, rfl, nofun, fun _ _ => rfl⟩
    | succ n ih =>
      obtain ⟨t, ht, hstored⟩ := ih (by omega)
      have hclk : t.clk = s.clk := by rw [hstored.rest]
      have hchip := hstored.chip_ge n (Nat.le_refl n)
      have hupdate : updateTo n t.clk t = .ok (storeLive n t.clk t) := by
        refine updateTo_idle ?_ fun x hrun => ?_
        · rw [hchip, hclk]
          exact (hready.inv.chip n hn).rc_le
        · rw [hchip] at hrun ⊢
          rw [hclk]
          exact hready.lt_of_noneDue hnone hn hrun
      exact ⟨_, forUpTo_succ_eq_ok.mpr ⟨t, ht, hupdate⟩, hstored.storeLive⟩
  exact hloop s.cfg.nchip (Nat.le_refl _)

/-- With nothing due every armed target comes after `clk` (41_alarm_scheduler.md R128). -/
theorem State.NoneDue.clk_lt (hnone : s.NoneDue) {al : Alarm} (hal : al ∈ s.alarms) (harmed : al.armed = true) :
    s.clk.toNat < al.target.toNat := by
  have hdue := hnone al hal
  have hlater : s.clk < al.target := by simpa [Alarm.due, harmed] using hdue
  exact hlater

/-- The rebased chip of a stored one (40_counter_guard.md R107). -/
theorem rebase_storeLive {k : Nat} (hready : s.Ready) (hnone : s.NoneDue) (hk : k < s.cfg.nchip)
    (hsub : sub ≤ s.clk.toNat) :
    let c := (storeLive k s.clk s).chip k
    c.rebase sub = { c with
      rc := BitVec.ofNat 32 (s.clk.toNat - sub)
      chanA := { c.chanA with u := if c.chanState .A = .running then c.chanA.u - BitVec.ofNat 32 sub else never }
      chanB := { c.chanB with u := if c.chanState .B = .running then c.chanB.u - BitVec.ofNat 32 sub else never }
      lastRead := (c.lastRead.filter fun r => decide (sub ≤ r.toNat)).map fun r => r - BitVec.ofNat 32 sub } := by
  intro c
  have hlen := hready.inv.chip_lt hk
  have hrc : c.rc = s.clk := rc_storeLive hlen
  have hstate (x : Channel) : c.chanState x = (s.chip k).chanState x := Chip.chanState_congr (ctl_storeLive hlen)
  have hu (x : Channel) : (c.chan x).u = ((s.chip k).chan x).u := by rw [chan_storeLive hlen]
  have hchan (x : Channel) : rebaseChan sub (decide (c.chanState x = .running)) (c.chan x) =
      { c.chan x with u := if c.chanState x = .running then (c.chan x).u - BitVec.ofNat 32 sub else never } := by
    rw [rebaseChan_eq]
    · simp only [decide_eq_true_eq]
    · intro hrun
      have hrun := of_decide_eq_true hrun
      have hlater : s.clk.toNat < ((s.chip k).chan x).u.toNat := hready.lt_of_noneDue hnone hk (hstate x ▸ hrun)
      rw [hu]
      omega
    · intro hidle
      rw [hu]
      exact ((hready.inv.chip k hk).chan x).idle_never (hstate x ▸ of_decide_eq_false hidle)
  unfold Chip.rebase
  rw [hrc, rebaseLastRead_eq, show rebaseChan sub _ c.chanA = _ from hchan .A,
    show rebaseChan sub _ c.chanB = _ from hchan .B]
  rfl

/-- The rebase after that reconciliation: every armed target comes after `clk`, so it succeeds (40_counter_guard.md
R106). -/
theorem rebaseAll_of_storedBelow (hready : s.Ready) (hnone : s.NoneDue) (hstored : StoredBelow s.cfg.nchip s t)
    (hsub : sub ≤ s.clk.toNat) :
    rebaseAll sub t = .ok { s with
      clk := BitVec.ofNat 32 (s.clk.toNat - sub)
      alarms := s.alarms.map (Alarm.rebase sub)
      lineClkMaskable := rebaseStamp sub s.lineClkMaskable
      lineClkUrgent := rebaseStamp sub s.lineClkUrgent
      chips := (List.range s.cfg.nchip).map fun k => ((storeLive k s.clk s).chip k).rebase sub } := by
  have halarms : t.alarms = s.alarms := by rw [hstored.rest]
  have hchips : t.chips.map (Chip.rebase sub) =
      (List.range s.cfg.nchip).map fun k => ((storeLive k s.clk s).chip k).rebase sub := by
    rw [State.chips_eq_map_chip, List.map_map, hstored.chips_length, hready.inv.chips_length]
    refine List.map_congr_left fun k hk => ?_
    rw [Function.comp_apply, hstored.chip_lt k (List.mem_range.mp hk)]
  refine rebaseAll_eq_ok.mpr ⟨fun al hal harmed => ?_, ?_⟩
  · rw [halarms] at hal
    have hlater := hnone.clk_lt hal harmed
    omega
  · rw [hchips, hstored.rest]

/-- What the guard does above the high-water mark, with nothing due (40_counter_guard.md R103, R105). -/
theorem guardRebase_of_noneDue (hready : s.Ready) (hnone : s.NoneDue)
    (hsub : s.clk.toNat - s.cfg.safeBase = sub) :
    guardRebase s = .ok (emit (.rebase sub) { s with
      clk := BitVec.ofNat 32 (s.clk.toNat - sub)
      alarms := s.alarms.map (Alarm.rebase sub)
      lineClkMaskable := rebaseStamp sub s.lineClkMaskable
      lineClkUrgent := rebaseStamp sub s.lineClkUrgent
      chips := (List.range s.cfg.nchip).map fun k => ((storeLive k s.clk s).chip k).rebase sub },
      .value (BitVec.ofNat 32 sub)) := by
  obtain ⟨t, hreconcile, hstored⟩ := reconcileAll_of_noneDue hready hnone
  unfold guardRebase
  dsimp only
  rw [hsub, hreconcile, ok_bind, rebaseAll_of_storedBelow hready hnone hstored (by omega), ok_bind]

end

/-- Settles O18: the dispatch leaves nothing due, the reconciliation then stores the live values, and the rebase shifts
each cached value. -/
theorem guardTickRebases : Obligations.GuardTickRebases := by
  unfold Obligations.GuardTickRebases
  intro s hready
  obtain ⟨s₁, n, hdispatch, hready₁, hnone, hclk⟩ := dispatch_of_ready hready
  have hcfg := (DispatchKeeps.dispatch hdispatch).1.cfg
  have hguard (r : Result) (hr : (if s₁.clk.toNat > s₁.cfg.highWater then guardRebase s₁ else .ok (s₁, .nothing)) = r) :
      exec .guardTick s = .next (conclude s r) := by
    change execGuardTick s = _
    rw [execGuardTick, perform_of_none hready.no_fault, afterDispatch_of_ok hdispatch, hr]
  refine ⟨s₁, ⟨n, hdispatch⟩, fun hbelow => ?_, fun habove => ?_⟩
  · exact hguard _ (if_neg (by rw [hclk, hcfg]; omega))
  · intro sub back stamp
    have hbase := hready.inv.cfg_wf.safeBase_lt
    have hle : sub ≤ s₁.clk.toNat := by rw [hclk]; exact Nat.sub_le _ _
    have hdiff : s₁.clk.toNat - sub = s.cfg.safeBase := by rw [hclk]; exact Nat.sub_sub_self (by omega)
    have halarms : s₁.alarms.map (Alarm.rebase sub) =
        s₁.alarms.map fun al => if al.armed then ⟨true, back al.target⟩ else ⟨false, never⟩ :=
      List.map_congr_left fun al hal => Alarm.rebase_eq
        (fun harmed => Nat.le_trans hle (Nat.le_of_lt (hnone.clk_lt hal harmed)))
        (hready₁.inv.disarmed_never al hal)
    have hchips := List.map_congr_left (l := List.range s.cfg.nchip) fun k hk =>
      rebase_storeLive hready₁ hnone (by rw [hcfg]; exact List.mem_range.mp hk) hle
    rw [hguard _ ((if_pos (by rw [hclk, hcfg]; omega)).trans
      (guardRebase_of_noneDue hready₁ hnone (by rw [hclk, hcfg]))), conclude_ok, halarms, rebaseStamp_eq_ite,
      rebaseStamp_eq_ite, hcfg, hchips, hdiff]
    rfl

end Sys2Proof.Machine
end

section
/-! The state on a time scale that starts `sub` cycles later (40_counter_guard.md R108): `State.shifted` shifts every
cached cycle value, whatever the state of the channel or slot that holds it, so that it commutes with every update of
the state. Where the invariant holds it is what `RebaseAll` makes of the state. -/

namespace Sys2Proof.Machine

/-- A channel on the later time scale: `U = NEVER` stays (40_counter_guard.md R107). -/
def Chan.shifted (sub : Nat) (ch : Chan) : Chan := { ch with u := shiftCycle sub ch.u }

/-- A chip on the later time scale (40_counter_guard.md R107). -/
def Chip.shifted (sub : Nat) (c : Chip) : Chip :=
  { c with
    rc := rebaseStamp sub c.rc
    chanA := c.chanA.shifted sub
    chanB := c.chanB.shifted sub
    lastRead := rebaseLastRead sub c.lastRead }

/-- A slot on the later time scale: the target `NEVER` stays (40_counter_guard.md R106). -/
def Alarm.shifted (sub : Nat) (al : Alarm) : Alarm := { al with target := shiftCycle sub al.target }

/-- A state on the later time scale, after an operation that answered `r` (40_counter_guard.md R106, R108). -/
def State.shifted (sub : Nat) (r : BitVec 32) (s : State) : State :=
  { s with
    clk := rebaseStamp sub s.clk
    alarms := s.alarms.map (Alarm.shifted sub)
    lineClkMaskable := rebaseStamp sub s.lineClkMaskable
    lineClkUrgent := rebaseStamp sub s.lineClkUrgent
    chips := s.chips.map (Chip.shifted sub)
    resp := r }

/-! ### Cycles -/

section
variable {sub : Nat} {c u : Cycle}

theorem toNat_lt_never (h : c ≠ never) : c.toNat < neverNat := by
  refine Nat.lt_of_le_of_ne (Nat.le_of_lt_succ c.isLt) fun heq => h ?_
  exact BitVec.eq_of_toNat_eq heq

theorem ne_never_of_lt (h : c.toNat < neverNat) : c ≠ never := by
  rintro rfl
  exact absurd h (by decide)

/-- A cycle value other than `NEVER` that is not before the new origin is shifted like a stamp. -/
theorem shiftCycle_eq_rebaseStamp (hsub : sub ≤ c.toNat) (hne : c ≠ never) : shiftCycle sub c = rebaseStamp sub c := by
  rw [shiftCycle_of_ne hne, rebaseStamp_of_le hsub]

theorem toNat_shiftCycle (hsub : sub ≤ c.toNat) (hne : c ≠ never) : (shiftCycle sub c).toNat = c.toNat - sub := by
  rw [shiftCycle_eq_rebaseStamp hsub hne, toNat_rebaseStamp]

/-- The comparison of a scheduled cycle with a present one does not see the shift (40_counter_guard.md R108). -/
theorem shiftCycle_le_rebaseStamp_iff (hu : sub ≤ u.toNat) (hc : sub ≤ c.toNat) (hlt : c.toNat < neverNat) :
    shiftCycle sub u ≤ rebaseStamp sub c ↔ u ≤ c := by
  rw [BitVec.le_def, BitVec.le_def, toNat_rebaseStamp]
  by_cases hne : u = never
  · have hnever : never.toNat = neverNat := rfl
    rw [hne, shiftCycle_never, hnever]
    omega
  · rw [toNat_shiftCycle hu hne]
    omega

theorem rebaseStamp_lt_iff (hc : sub ≤ c.toNat) : rebaseStamp sub c < rebaseStamp sub u ↔ c < u := by
  rw [BitVec.lt_def, BitVec.lt_def, toNat_rebaseStamp, toNat_rebaseStamp]
  omega

/-- A cycle computed from a shifted one is the computed cycle shifted. -/
theorem rebaseStamp_ofNat {v : Nat} (hv : v < 2 ^ 32) :
    rebaseStamp sub (BitVec.ofNat 32 v) = BitVec.ofNat 32 (v - sub) := by
  rw [rebaseStamp, BitVec.toNat_ofNat, Nat.mod_eq_of_lt hv]

theorem shiftCycle_ofNat {v : Nat} (hsub : sub ≤ v) (hv : v < neverNat) :
    shiftCycle sub (BitVec.ofNat 32 v) = BitVec.ofNat 32 (v - sub) := by
  have hnat := toNat_ofNat_cycle hv
  rw [shiftCycle_eq_rebaseStamp (by rwa [hnat]) (ne_never_of_lt (by rwa [hnat])), rebaseStamp_ofNat]
  exact Nat.lt_trans hv (by decide)

/-- The recorded read is that of a cycle on either time scale (44_chip_icr_sdr_ports.md R210). -/
theorem rebaseLastRead_eq_some_iff {l : Option Cycle} (hc : sub ≤ c.toNat) :
    rebaseLastRead sub l = some (rebaseStamp sub c) ↔ l = some c := by
  cases l with
  | none => simp [rebaseLastRead]
  | some e =>
    rw [rebaseLastRead, Option.some.injEq]
    split
    case isTrue he =>
      rw [Option.some.injEq]
      refine ⟨fun h => BitVec.eq_of_toNat_eq ?_, fun h => by rw [h, rebaseStamp]⟩
      have hnat : (rebaseStamp sub e).toNat = (rebaseStamp sub c).toNat := congrArg BitVec.toNat h
      rw [toNat_rebaseStamp, toNat_rebaseStamp] at hnat
      omega
    case isFalse he =>
      refine ⟨fun h => (nomatch h), fun h => ?_⟩
      rw [h] at he
      exact absurd hc he

end

/-! ### What is read of a shifted state -/

section
variable {sub : Nat} {r : BitVec 32} (s : State)

@[simp] theorem State.shifted_cfg : (s.shifted sub r).cfg = s.cfg := rfl
@[simp] theorem State.shifted_clk : (s.shifted sub r).clk = rebaseStamp sub s.clk := rfl
@[simp] theorem State.shifted_payloadIn : (s.shifted sub r).payloadIn = s.payloadIn := rfl
@[simp] theorem State.lineOf_shifted (n : Nat) : (s.shifted sub r).lineOf n = s.lineOf n := rfl
@[simp] theorem State.rises_shifted (n : Nat) (b : Bool) : (s.shifted sub r).rises n b = s.rises n b := rfl

@[simp] theorem State.lineClk_shifted (l : Line) : (s.shifted sub r).lineClk l = rebaseStamp sub (s.lineClk l) := by
  cases l <;> rfl

theorem Alarm.shifted_absent (sub : Nat) : Alarm.absent.shifted sub = Alarm.absent := rfl

theorem Chip.shifted_absent (sub : Nat) : Chip.absent.shifted sub = Chip.absent := by
  have hrc : rebaseStamp sub 0 = 0 := BitVec.eq_of_toNat_eq (by rw [toNat_rebaseStamp]; exact Nat.zero_sub sub)
  change { Chip.absent with rc := rebaseStamp sub 0 } = _
  rw [hrc]
  rfl

@[simp] theorem State.alarm_shifted (a : Nat) : (s.shifted sub r).alarm a = (s.alarm a).shifted sub := by
  unfold State.alarm
  conv_lhs => rw [← Alarm.shifted_absent sub]
  exact List.getD_map ..

@[simp] theorem State.chip_shifted (k : Nat) : (s.shifted sub r).chip k = (s.chip k).shifted sub := by
  unfold State.chip
  conv_lhs => rw [← Chip.shifted_absent sub]
  exact List.getD_map ..

variable (c : Chip) (x : Channel)

@[simp] theorem Chip.chan_shifted : (c.shifted sub).chan x = (c.chan x).shifted sub := by cases x <;> rfl
@[simp] theorem Chip.ctl_shifted : (c.shifted sub).ctl x = c.ctl x := by cases x <;> rfl
@[simp] theorem Chip.chanState_shifted : (c.shifted sub).chanState x = c.chanState x := by cases x <;> rfl
@[simp] theorem Chip.oneShot_shifted : (c.shifted sub).oneShot x = c.oneShot x := by cases x <;> rfl
@[simp] theorem Chip.period_shifted : (c.shifted sub).period x = c.period x := by cases x <;> rfl
@[simp] theorem Chip.summary_shifted : (c.shifted sub).summary = c.summary := rfl
@[simp] theorem Chip.srBits_shifted : (c.shifted sub).srBits = c.srBits := rfl
@[simp] theorem Chip.cra_shifted : (c.shifted sub).cra = c.cra := rfl
@[simp] theorem Chip.crb_shifted : (c.shifted sub).crb = c.crb := rfl

/-! ### What is written to a shifted state -/

theorem State.setChip_shifted (k : Nat) (c : Chip) :
    (s.shifted sub r).setChip k (c.shifted sub) = (s.setChip k c).shifted sub r := by
  unfold State.setChip State.shifted
  rw [List.map_set]

theorem Chip.setChan_shifted (ch : Chan) :
    (c.shifted sub).setChan x (ch.shifted sub) = (c.setChan x ch).shifted sub := by
  cases x <;> rfl

theorem Chip.setCtl_shifted (v : Byte) : (c.shifted sub).setCtl x v = (c.setCtl x v).shifted sub := by cases x <;> rfl

theorem State.setChan_shifted (k : Nat) (ch : Chan) :
    (s.shifted sub r).setChan k x (ch.shifted sub) = (s.setChan k x ch).shifted sub r := by
  rw [State.setChan, State.chip_shifted, Chip.setChan_shifted, State.setChip_shifted, State.setChan]

theorem State.setCtl_shifted (k : Nat) (v : Byte) :
    (s.shifted sub r).setCtl k x v = (s.setCtl k x v).shifted sub r := by
  rw [State.setCtl, State.chip_shifted, Chip.setCtl_shifted, State.setChip_shifted, State.setCtl]

theorem State.setAlarm_shifted (a : Nat) (al : Alarm) :
    (s.shifted sub r).setAlarm a (al.shifted sub) = (s.setAlarm a al).shifted sub r := by
  unfold State.setAlarm State.shifted
  rw [List.map_set]

theorem alarmUnset_shifted (a : Nat) : alarmUnset a (s.shifted sub r) = (alarmUnset a s).shifted sub r :=
  State.setAlarm_shifted s a ⟨false, never⟩

theorem emit_shifted (e : Event) : emit e (s.shifted sub r) = (emit e s).shifted sub r := rfl

/-- An edge at a shifted cycle stamps the line there (42_interrupt_aggregator.md R143). -/
theorem aggSet_shifted (n : Nat) (b : Bool) (e : Cycle) :
    aggSet n b (rebaseStamp sub e) (s.shifted sub r) = (aggSet n b e s).shifted sub r := by
  unfold aggSet
  rw [State.rises_shifted, State.lineOf_shifted]
  split
  · cases s.lineOf n <;> rfl
  · rfl

theorem updateLine_shifted (k : Nat) (e : Cycle) :
    updateLine k (rebaseStamp sub e) (s.shifted sub r) = (updateLine k e s).shifted sub r := by
  rw [updateLine, State.chip_shifted, Chip.summary_shifted, aggSet_shifted, updateLine]

/-- A change of chip `k` that the shift passes through. -/
theorem State.modifyChip_shifted {f f' : Chip → Chip} (k : Nat)
    (hf : f' ((s.chip k).shifted sub) = (f (s.chip k)).shifted sub) :
    (s.shifted sub r).setChip k (f' ((s.shifted sub r).chip k)) = (s.setChip k (f (s.chip k))).shifted sub r := by
  rw [State.chip_shifted, hf, State.setChip_shifted]

end

end Sys2Proof.Machine
end

section
/-! The effects of underflows on the later time scale (43_chip_timers.md R163 to R165): each works on a shifted state as
on the state itself, its cycles shifted. -/

namespace Sys2Proof.Machine

section
variable {sub : Nat} {r : BitVec 32} {k : Nat} {s : State}

/-! ### Flags -/

theorem readWon_shifted {e : Cycle} (he : sub ≤ e.toNat) :
    readWon k (rebaseStamp sub e) (s.shifted sub r) = readWon k e s := by
  have hread : decide (((s.chip k).shifted sub).lastRead = some (rebaseStamp sub e)) =
      decide ((s.chip k).lastRead = some e) := decide_eq_decide.mpr (rebaseLastRead_eq_some_iff he)
  rw [readWon, State.chip_shifted, hread, readWon, State.shifted_cfg]

theorem setFlag_shifted {e : Cycle} (bit : Byte) (he : sub ≤ e.toNat) :
    setFlag k bit (rebaseStamp sub e) (s.shifted sub r) = (setFlag k bit e s).shifted sub r := by
  unfold setFlag
  rw [readWon_shifted he]
  split
  · rfl
  · rw [← updateLine_shifted]
    exact congrArg _ (s.modifyChip_shifted (f := fun c => { c with flags := c.flags ||| bit })
      (f' := fun c => { c with flags := c.flags ||| bit }) k rfl)

/-- The same at a cycle given as a number (43_chip_timers.md R164). -/
theorem setFlag_ofNat_shifted {e : Nat} (bit : Byte) (he : sub ≤ e) (hlt : e < 2 ^ 32) :
    setFlag k bit (BitVec.ofNat 32 (e - sub)) (s.shifted sub r) =
    (setFlag k bit (BitVec.ofNat 32 e) s).shifted sub r := by
  rw [← rebaseStamp_ofNat hlt]
  exact setFlag_shifted bit (by rwa [BitVec.toNat_ofNat, Nat.mod_eq_of_lt hlt])

/-! ### The shift register -/

/-- The cycles of `n` underflows from `e0` on, a period apart, are after the new origin and fit a register. -/
structure Underflows (sub n e0 P : Nat) : Prop where
  first : sub ≤ e0
  fits : ∀ i < n, e0 + i * P < 2 ^ 32

theorem Underflows.sub_add {n e0 P : Nat} (h : Underflows sub n e0 P) (m : Nat) : e0 - sub + m = e0 + m - sub := by
  have := h.first
  omega

theorem Underflows.setFlag {n e0 P i : Nat} (h : Underflows sub n e0 P) (bit : Byte) (hi : i < n) :
    Machine.setFlag k bit (BitVec.ofNat 32 (e0 - sub + i * P)) (s.shifted sub r) =
      (Machine.setFlag k bit (BitVec.ofNat 32 (e0 + i * P)) s).shifted sub r := by
  rw [h.sub_add]
  exact setFlag_ofNat_shifted bit (Nat.le_add_right_of_le h.first) (h.fits i hi)

theorem Underflows.shiftEvents {n e0 P : Nat} (h : Underflows sub n e0 P) (hn : 0 < n) :
    Machine.shiftEvents k n (e0 - sub) P (s.shifted sub r) = (Machine.shiftEvents k n e0 P s).shifted sub r := by
  unfold Machine.shiftEvents
  dsimp only
  rw [State.shifted_cfg, State.chip_shifted, Chip.srBits_shifted]
  generalize hold : (s.chip k).srBits.toNat = old
  have hcount := s.modifyChip_shifted (sub := sub) (r := r)
    (f := fun c => { c with srBits := BitVec.ofNat 5 (old - min n old) })
    (f' := fun c => { c with srBits := BitVec.ofNat 5 (old - min n old) }) k rfl
  rw [State.chip_shifted] at hcount
  rw [hcount]
  split
  · rfl
  · split <;> split
    · exact h.setFlag flagSdr (by omega)
    · rfl
    · exact h.setFlag flagSdr (by omega)
    · rfl

theorem Underflows.clockShift {n e0 P : Nat} (h : Underflows sub n e0 P) (hn : 0 < n) :
    Machine.clockShift k n (e0 - sub) P (s.shifted sub r) = (Machine.clockShift k n e0 P s).shifted sub r := by
  unfold Machine.clockShift
  rw [State.chip_shifted, Chip.cra_shifted]
  split
  · exact h.shiftEvents hn
  · rfl

/-! ### Count events -/

theorem stopOneShot_shifted (x : Channel) : stopOneShot k x (s.shifted sub r) = (stopOneShot k x s).shifted sub r := by
  unfold stopOneShot
  rw [State.chip_shifted, Chip.oneShot_shifted, Chip.ctl_shifted]
  split
  · exact s.setCtl_shifted x k _
  · rfl

theorem countOne_shifted {underflow underflow' : State → State}
    (hu : ∀ s : State, underflow' (s.shifted sub r) = (underflow s).shifted sub r) (x : Channel) :
    countOne underflow' k x (s.shifted sub r) = (countOne underflow k x s).shifted sub r := by
  unfold countOne
  dsimp only
  rw [State.chip_shifted, Chip.chan_shifted]
  generalize (s.chip k).chan x = ch
  have hreload := s.setChan_shifted (sub := sub) (r := r) x k { ch with cnt := ch.latch, toggle := !ch.toggle }
  split
  case isTrue h =>
    rw [if_pos (show countDown ch.cnt = 0 from h), ← hu, ← stopOneShot_shifted, ← hreload]
    rfl
  case isFalse h =>
    rw [if_neg (show ¬countDown ch.cnt = 0 from h), ← State.setChan_shifted]
    rfl

theorem Underflows.countLoop {n e P : Nat} {underflow : Nat → State → State} (h : Underflows sub n e P)
    (hu : ∀ (e : Nat) (s : State), sub ≤ e → e < 2 ^ 32 →
      underflow (e - sub) (s.shifted sub r) = (underflow e s).shifted sub r) (x : Channel) (mode : ChanState) :
    Machine.countLoop underflow k x mode P n (e - sub) (s.shifted sub r) =
      (Machine.countLoop underflow k x mode P n e s).shifted sub r := by
  induction n generalizing e s with
  | zero => rfl
  | succ n ih =>
    have hfirst : e < 2 ^ 32 := by simpa using h.fits 0 (Nat.succ_pos n)
    have hrest : Underflows sub n (e + P) P := by
      refine ⟨Nat.le_add_right_of_le h.first, fun i hi => ?_⟩
      have hlater := h.fits (i + 1) (by omega)
      rw [Nat.succ_mul] at hlater
      omega
    unfold Machine.countLoop
    rw [State.chip_shifted, Chip.chanState_shifted]
    split
    · rfl
    · rw [countOne_shifted (fun s => hu e s h.first hfirst), h.sub_add P]
      exact ih hrest

/-! ### The effects of an underflow -/

theorem Underflows.cascade {n e0 P : Nat} (h : Underflows sub n e0 P) :
    Machine.cascade k n (e0 - sub) P (s.shifted sub r) = (Machine.cascade k n e0 P s).shifted sub r := by
  unfold Machine.cascade
  rw [State.chip_shifted, Chip.chanState_shifted]
  split
  · exact h.countLoop (fun _ _ he hlt => setFlag_ofNat_shifted _ he hlt) .B .runningCascade
  · rfl

theorem Underflows.underflowEffects {n e0 P : Nat} (h : Underflows sub n e0 P) (hn : 0 < n) (x : Channel) :
    Machine.underflowEffects k x n (e0 - sub) P (s.shifted sub r) =
      (Machine.underflowEffects k x n e0 P s).shifted sub r := by
  have hfirst : e0 < 2 ^ 32 := by simpa using h.fits 0 hn
  cases x with
  | A =>
    unfold Machine.underflowEffects underflowEffectsA
    rw [setFlag_ofNat_shifted _ h.first hfirst, h.clockShift hn, h.cascade]
  | B => exact setFlag_ofNat_shifted _ h.first hfirst

/-- One count event of a channel that counts pulses (43_chip_timers.md R165, R201). -/
theorem countEvents_shifted {e : Nat} (he : sub ≤ e) (hlt : e < 2 ^ 32) (x : Channel) (mode : ChanState) :
    countEvents k x mode 1 (e - sub) 1 (s.shifted sub r) = (countEvents k x mode 1 e 1 s).shifted sub r := by
  have hone {e : Nat} (he : sub ≤ e) (hlt : e < 2 ^ 32) : Underflows sub 1 e 1 := ⟨he, fun i hi => by omega⟩
  exact (hone he hlt).countLoop (fun e s he hlt => (hone he hlt).underflowEffects Nat.one_pos x) x mode

end

end Sys2Proof.Machine
end

section
/-! Which states a rebase shifts (40_counter_guard.md R106, R107): `State.Shiftable` is the part of the invariant that
the
shift rests on, and here is what keeps it. -/

namespace Sys2Proof.Machine

/-- The target of a slot is after the new origin, and is `NEVER` exactly where the slot is disarmed (10_state.md R24).
-/
structure Alarm.Shiftable (sub : Nat) (al : Alarm) : Prop where
  target_ge : sub ≤ al.target.toNat
  armed_iff : al.armed = true ↔ al.target ≠ never

/-- The next underflow of channel `x` is after the new origin, and is `NEVER` exactly where the channel counts no cycles
(10_state.md R33). -/
structure Chip.ChanShiftable (sub : Nat) (c : Chip) (x : Channel) : Prop where
  u_ge : sub ≤ (c.chan x).u.toNat
  running_iff : c.chanState x = .running ↔ (c.chan x).u ≠ never

/-- The state can be shifted: what of the invariant a rebase by `sub` and the operations after it need
(43_chip_timers.md R162). -/
structure State.Shiftable (sub : Nat) (s : State) : Prop where
  clk_ge : sub ≤ s.clk.toNat
  clk_lt : s.clk.toNat < neverNat
  chips_length : s.chips.length = s.cfg.nchip
  alarm : ∀ a, (s.alarm a).Shiftable sub
  chan : ∀ k x, (s.chip k).ChanShiftable sub x
  tod_armed : ∀ k < s.cfg.nchip, (s.alarm (todSlot k)).armed = true

section
variable {sub : Nat} {k a : Nat} {x : Channel} {s t u : State}

/-! ### Slots and channels -/

theorem Alarm.shiftable_disarmed (hsub : sub ≤ neverNat) : Alarm.Shiftable sub ⟨false, never⟩ :=
  ⟨hsub, by simp⟩

theorem Alarm.shiftable_armed {v : Nat} (hsub : sub ≤ v) (hv : v < neverNat) :
    Alarm.Shiftable sub ⟨true, BitVec.ofNat 32 v⟩ := by
  have hnat := toNat_ofNat_cycle hv
  exact ⟨by rwa [hnat], by simpa using ne_never_of_lt (by rwa [hnat])⟩

theorem Chip.ChanShiftable.congr {c c' : Chip} (h : c.ChanShiftable sub x) (hu : (c'.chan x).u = (c.chan x).u)
    (hrun : c'.chanState x = .running ↔ c.chanState x = .running) : c'.ChanShiftable sub x :=
  ⟨by rw [hu]; exact h.u_ge, by rw [hrun, hu]; exact h.running_iff⟩

/-- A channel that counts no cycles has no underflow to come. -/
theorem Chip.chanShiftable_idle {c : Chip} (hsub : sub ≤ neverNat) (hu : (c.chan x).u = never)
    (hidle : c.chanState x ≠ .running) : c.ChanShiftable sub x :=
  ⟨by rw [hu]; exact hsub, by simp [hu, hidle]⟩

theorem Chip.chanShiftable_running {c : Chip} {v : Nat} (hsub : sub ≤ v) (hv : v < neverNat)
    (hu : (c.chan x).u = BitVec.ofNat 32 v) (hrun : c.chanState x = .running) : c.ChanShiftable sub x := by
  have hnat := toNat_ofNat_cycle hv
  have hne := ne_never_of_lt (show (BitVec.ofNat 32 v).toNat < neverNat by rwa [hnat])
  exact ⟨by rwa [hu, hnat], by rw [hu]; exact ⟨fun _ => hne, fun _ => hrun⟩⟩

/-! ### What keeps a state shiftable -/

theorem State.Shiftable.sub_le_never (h : s.Shiftable sub) : sub ≤ neverNat :=
  Nat.le_trans h.clk_ge (Nat.le_of_lt h.clk_lt)

theorem State.Shiftable.chip_lt (h : s.Shiftable sub) (hk : k < s.cfg.nchip) : k < s.chips.length := by
  rwa [h.chips_length]

/-- A tick's slot is armed, so it is in the table, and the channels' slots are before it (10_state.md R25). -/
theorem State.Shiftable.todSlot_lt (h : s.Shiftable sub) (hk : k < s.cfg.nchip) : todSlot k < s.alarms.length := by
  refine Nat.lt_of_not_le fun hle => ?_
  have harmed := h.tod_armed k hk
  simp [State.alarm, List.getD_eq_getElem?_getD, Nat.not_lt.mpr hle, Alarm.absent] at harmed

theorem State.Shiftable.slotOf_lt (h : s.Shiftable sub) (hk : k < s.cfg.nchip) (x : Channel) :
    slotOf k x < s.alarms.length :=
  Nat.lt_trans (Machine.slotOf_lt k x).2 (h.todSlot_lt hk)

/-- Shiftability depends on the parameters, the counter, the slots and the chips alone. -/
theorem State.Shiftable.congr (h : s.Shiftable sub) (hcfg : t.cfg = s.cfg) (hclk : t.clk = s.clk)
    (halarms : t.alarms = s.alarms) (hchips : t.chips = s.chips) : t.Shiftable sub where
  clk_ge := by rw [hclk]; exact h.clk_ge
  clk_lt := by rw [hclk]; exact h.clk_lt
  chips_length := by rw [hcfg, hchips]; exact h.chips_length
  alarm := fun a => by rw [State.alarm_eq_of_alarms_eq halarms]; exact h.alarm a
  chan := fun k x => by rw [State.chip_eq_of_chips_eq hchips]; exact h.chan k x
  tod_armed := fun k hk => by
    rw [hcfg] at hk
    rw [State.alarm_eq_of_alarms_eq halarms]
    exact h.tod_armed k hk

theorem State.Shiftable.answer (h : s.Shiftable sub) (r : Reply) : (s.answer r).Shiftable sub :=
  h.congr rfl rfl rfl rfl

/-- Work on chip `k` keeps a state shiftable where it keeps that chip's channels and slots so. -/
theorem State.Shiftable.onlyChip (h : s.Shiftable sub) (honly : OnlyChip k s t)
    (hslot : ∀ x, (t.alarm (slotOf k x)).Shiftable sub) (htod : (t.alarm (todSlot k)).Shiftable sub)
    (harmed : k < s.cfg.nchip → (t.alarm (todSlot k)).armed = true) (hchan : ∀ x, (t.chip k).ChanShiftable sub x) :
    t.Shiftable sub where
  clk_ge := by rw [honly.clk]; exact h.clk_ge
  clk_lt := by rw [honly.clk]; exact h.clk_lt
  chips_length := by rw [honly.cfg, honly.chips_length]; exact h.chips_length
  alarm := fun a => by
    by_cases hA : a = slotOf k .A
    · exact hA ▸ hslot .A
    by_cases hB : a = slotOf k .B
    · exact hB ▸ hslot .B
    by_cases hT : a = todSlot k
    · exact hT ▸ htod
    rw [honly.alarm a hA hB hT]
    exact h.alarm a
  chan := fun j x => by
    by_cases hj : j = k
    · exact hj ▸ hchan x
    · rw [honly.chip j hj]
      exact h.chan j x
  tod_armed := fun j hj => by
    rw [honly.cfg] at hj
    by_cases hjk : j = k
    · subst hjk
      exact harmed hj
    · rw [(honly.alarm_of_ne hjk).2]
      exact h.tod_armed j hj

/-! ### Work on one channel -/

/-- Work on channel `x` of chip `k` that leaves the other channel, its control register and every other slot alone. -/
structure OnlyChannel (k : Nat) (x : Channel) (s t : State) : Prop extends OnlyChip k s t where
  chan : ∀ y, y ≠ x → (t.chip k).chan y = (s.chip k).chan y
  ctl : ∀ y, y ≠ x → (t.chip k).ctl y = (s.chip k).ctl y
  slot : ∀ a, a ≠ slotOf k x → t.alarm a = s.alarm a

theorem OnlyChannel.refl (k : Nat) (x : Channel) (s : State) : OnlyChannel k x s s :=
  ⟨OnlyChip.refl k s, fun _ _ => rfl, fun _ _ => rfl, fun _ _ => rfl⟩

theorem OnlyChannel.trans (h : OnlyChannel k x s t) (g : OnlyChannel k x t u) : OnlyChannel k x s u :=
  ⟨h.toOnlyChip.trans g.toOnlyChip, fun y hy => (g.chan y hy).trans (h.chan y hy),
    fun y hy => (g.ctl y hy).trans (h.ctl y hy), fun a ha => (g.slot a ha).trans (h.slot a ha)⟩

theorem OnlyChannel.setChan (k : Nat) (x : Channel) (ch : Chan) (s : State) : OnlyChannel k x s (s.setChan k x ch) := by
  unfold State.setChan
  rcases State.setChip_cases s k ((s.chip k).setChan x ch) with ⟨-, hchip⟩ | hsame
  · exact ⟨OnlyChip.setChan k x ch s, fun y hy => by rw [hchip, Chip.chan_setChan_ne _ _ hy],
      fun y _ => by rw [hchip, Chip.ctl_setChan], fun _ _ => rfl⟩
  · rw [hsame]
    exact OnlyChannel.refl k x s

theorem OnlyChannel.setCtl (k : Nat) (x : Channel) (v : Byte) (s : State) : OnlyChannel k x s (s.setCtl k x v) := by
  unfold State.setCtl
  rcases State.setChip_cases s k ((s.chip k).setCtl x v) with ⟨-, hchip⟩ | hsame
  · exact ⟨OnlyChip.setCtl k x v s, fun y _ => by rw [hchip, Chip.chan_setCtl],
      fun y hy => by rw [hchip, Chip.ctl_setCtl_ne _ _ hy], fun _ _ => rfl⟩
  · rw [hsame]
    exact OnlyChannel.refl k x s

theorem OnlyChannel.setAlarm (k : Nat) (x : Channel) (al : Alarm) (s : State) :
    OnlyChannel k x s (s.setAlarm (slotOf k x) al) :=
  ⟨OnlyChip.setAlarm (ownSlot k x) al s, fun _ _ => rfl, fun _ _ => rfl, fun _ ha => State.alarm_setAlarm_ne s al ha⟩

theorem OnlyChannel.stopOneShot (k : Nat) (x : Channel) (s : State) : OnlyChannel k x s (stopOneShot k x s) := by
  unfold Machine.stopOneShot
  split
  · exact OnlyChannel.setCtl k x _ s
  · exact OnlyChannel.refl k x s

/-- Work on one channel keeps a state shiftable where it keeps that channel and its slot so. -/
theorem State.Shiftable.onlyChannel (h : s.Shiftable sub) (honly : OnlyChannel k x s t)
    (hslot : (t.alarm (slotOf k x)).Shiftable sub) (hchan : (t.chip k).ChanShiftable sub x) : t.Shiftable sub := by
  have htod : t.alarm (todSlot k) = s.alarm (todSlot k) := honly.slot _ (slotOf_ne_todSlot k k x).symm
  refine h.onlyChip honly.toOnlyChip (fun y => ?_) ?_ (fun hk => ?_) fun y => ?_
  · by_cases hy : y = x
    · exact hy ▸ hslot
    · rw [honly.slot _ fun heq => hy (slotOf_inj heq).2]
      exact h.alarm _
  · rw [htod]
    exact h.alarm _
  · rw [htod]
    exact h.tod_armed k hk
  · by_cases hy : y = x
    · exact hy ▸ hchan
    · exact (h.chan k y).congr (by rw [honly.chan y hy]) (by rw [Chip.chanState_congr (honly.ctl y hy)])

/-! ### Work that schedules nothing -/

/-- Work on chip `k` that leaves the alarm table, the next underflows and which channels count cycles alone. -/
structure KeepsSchedule (k : Nat) (s t : State) : Prop extends OnlyChip k s t where
  alarms : t.alarms = s.alarms
  u : ∀ x, ((t.chip k).chan x).u = ((s.chip k).chan x).u
  running : ∀ x, (t.chip k).chanState x = .running ↔ (s.chip k).chanState x = .running

theorem KeepsSchedule.refl (k : Nat) (s : State) : KeepsSchedule k s s :=
  ⟨OnlyChip.refl k s, rfl, fun _ => rfl, fun _ => Iff.rfl⟩

theorem KeepsSchedule.trans (h : KeepsSchedule k s t) (g : KeepsSchedule k t u) : KeepsSchedule k s u :=
  ⟨h.toOnlyChip.trans g.toOnlyChip, g.alarms.trans h.alarms, fun x => (g.u x).trans (h.u x),
    fun x => (g.running x).trans (h.running x)⟩

theorem State.Shiftable.keepsSchedule (h : s.Shiftable sub) (hkeeps : KeepsSchedule k s t) : t.Shiftable sub := by
  have halarm (a : Nat) : t.alarm a = s.alarm a := State.alarm_eq_of_alarms_eq hkeeps.alarms a
  refine h.onlyChip hkeeps.toOnlyChip (fun x => ?_) ?_ (fun hk => ?_) fun x => ?_
  · rw [halarm]
    exact h.alarm _
  · rw [halarm]
    exact h.alarm _
  · rw [halarm]
    exact h.tod_armed k hk
  · exact (h.chan k x).congr (hkeeps.u x) (hkeeps.running x)

theorem KeepsSchedule.setChip {c : Chip} (hu : ∀ x, (c.chan x).u = ((s.chip k).chan x).u)
    (hrun : ∀ x, c.chanState x = .running ↔ (s.chip k).chanState x = .running) : KeepsSchedule k s (s.setChip k c) := by
  rcases State.setChip_cases s k c with ⟨-, hchip⟩ | hsame
  · exact ⟨OnlyChip.setChip k c s, rfl, fun x => by rw [hchip, hu], fun x => by rw [hchip, hrun]⟩
  · rw [hsame]
    exact KeepsSchedule.refl k s

/-- A change of the chip's registers other than its channels and control registers. -/
theorem KeepsSchedule.setRegs {c : Chip} (hA : c.chanA = (s.chip k).chanA) (hB : c.chanB = (s.chip k).chanB)
    (hcra : c.cra = (s.chip k).cra) (hcrb : c.crb = (s.chip k).crb) : KeepsSchedule k s (s.setChip k c) := by
  have hchan (x : Channel) : c.chan x = (s.chip k).chan x := by cases x <;> assumption
  have hctl (x : Channel) : c.ctl x = (s.chip k).ctl x := by cases x <;> assumption
  exact KeepsSchedule.setChip (fun x => by rw [hchan]) fun x => by rw [Chip.chanState_congr (hctl x)]

/-- The counter, the latch and the toggle of a channel are written. -/
theorem KeepsSchedule.setChan {ch : Chan} (hu : ch.u = ((s.chip k).chan x).u) :
    KeepsSchedule k s (s.setChan k x ch) := by
  refine KeepsSchedule.setChip (fun y => ?_) fun y => by rw [Chip.chanState_congr (Chip.ctl_setChan _ x y ch)]
  by_cases hy : y = x
  · rw [hy, Chip.chan_setChan, hu]
  · rw [Chip.chan_setChan_ne _ _ hy]

/-- A control register is written without starting or stopping the count of cycles. -/
theorem KeepsSchedule.setCtl {v : Byte} (hrun : ctlState x v = .running ↔ (s.chip k).chanState x = .running) :
    KeepsSchedule k s (s.setCtl k x v) := by
  refine KeepsSchedule.setChip (fun y => by rw [Chip.chan_setCtl]) fun y => ?_
  by_cases hy : y = x
  · rw [hy, Chip.chanState, Chip.ctl_setCtl, hrun]
  · rw [Chip.chanState_congr (Chip.ctl_setCtl_ne _ v hy)]

theorem KeepsSchedule.updateLine (k : Nat) (e : Cycle) (s : State) : KeepsSchedule k s (updateLine k e s) :=
  ⟨OnlyChip.updateLine k e s, updateLine_alarms k e s, fun x => by rw [State.chip_updateLine],
    fun x => by rw [State.chip_updateLine]⟩

theorem KeepsSchedule.storeLive (k : Nat) (c : Cycle) (s : State) : KeepsSchedule k s (storeLive k c s) :=
  KeepsSchedule.setChip (fun x => by cases x <;> rfl) fun x => by cases x <;> rfl

theorem FlagWork.keepsSchedule {c : Nat} {spared : Byte} (h : FlagWork k c spared s t) : KeepsSchedule k s t :=
  ⟨h.only, h.alarms, fun x => by rw [h.chan], fun x => by rw [Chip.chanState_congr (h.ctl x)]⟩

/-- A channel B that counts no cycles does not begin to by losing its start bit. -/
theorem CascadeWork.keepsSchedule {c : Nat} {spared : Byte} (h : CascadeWork k c spared s t)
    (hB : (s.chip k).chanState .B ≠ .running) : KeepsSchedule k s t := by
  refine ⟨h.only, h.alarms, fun x => ?_, fun x => ?_⟩
  · cases x with
    | A => exact congrArg Chan.u h.chanA
    | B => exact h.uB
  · cases x with
    | A => rw [Chip.chanState_congr (x := .A) h.cra]
    | B =>
      rcases h.crb with hsame | hclear
      · rw [Chip.chanState_congr (x := .B) hsame]
      · have hstopped : (t.chip k).chanState .B = .stopped := by
          change ctlState .B (t.chip k).crb = .stopped
          rw [hclear, ctlState_clearStart]
        exact ⟨fun hrun => (nomatch hstopped.symm.trans hrun), fun hrun => absurd hrun hB⟩

/-- The effects of underflows schedule nothing (43_chip_timers.md R164). -/
theorem KeepsSchedule.underflowEffects (k : Nat) (x : Channel) (n e0 P : Nat) (s : State) :
    KeepsSchedule k s (underflowEffects k x n e0 P s) := by
  cases x with
  | A =>
    by_cases hB : (s.chip k).chanState .B = .runningCascade
    · exact (CascadeWork.underflowEffects (Nat.le_refl _)).keepsSchedule (by rw [hB]; exact nofun)
    · exact (FlagWork.underflowEffectsA (Nat.le_refl _) hB).keepsSchedule
  | B => exact (FlagWork.underflowEffectsB (spared := 0) BitVec.and_zero (Nat.le_refl _)).keepsSchedule

theorem KeepsSchedule.stopOneShot (hidle : (s.chip k).chanState x ≠ .running) :
    KeepsSchedule k s (stopOneShot k x s) := by
  unfold Machine.stopOneShot
  split
  · refine KeepsSchedule.setCtl ?_
    rw [ctlState_clearStart]
    exact ⟨fun hrun => (nomatch hrun), fun hrun => absurd hrun hidle⟩
  · exact KeepsSchedule.refl k s

/-- A count event of a channel that counts no cycles schedules nothing (43_chip_timers.md R165). -/
theorem KeepsSchedule.countOne {underflow : State → State} (hu : ∀ s, KeepsSchedule k s (underflow s))
    (hidle : (s.chip k).chanState x ≠ .running) : KeepsSchedule k s (countOne underflow k x s) := by
  unfold Machine.countOne
  dsimp only
  split
  · have hwrite : KeepsSchedule k s (s.setChan k x { (s.chip k).chan x with
        cnt := ((s.chip k).chan x).latch, toggle := !((s.chip k).chan x).toggle }) := KeepsSchedule.setChan rfl
    refine (hwrite.trans (KeepsSchedule.stopOneShot fun hrun => hidle ?_)).trans (hu _)
    exact (hwrite.running x).mp hrun
  · exact KeepsSchedule.setChan rfl

/-- A pulse schedules nothing: the channels that count pulses count no cycles (43_chip_timers.md R165, R201). -/
theorem KeepsSchedule.pulseChannel (k : Nat) (x : Channel) (s : State) : KeepsSchedule k s (pulseChannel k x s) := by
  unfold Machine.pulseChannel
  split
  case isFalse => exact KeepsSchedule.refl k s
  case isTrue hext =>
    have hidle : (s.chip k).chanState x ≠ .running := by rw [hext]; exact nofun
    unfold countEvents countLoop
    rw [if_neg (by simp [hext])]
    exact KeepsSchedule.countOne (fun s => KeepsSchedule.underflowEffects k x 1 _ 1 s) hidle

end

end Sys2Proof.Machine
end

section
/-! Operations in step on the two time scales (40_counter_guard.md R108): `InStep` of what an operation makes of a state
and of what it makes of the shifted state, and the shared operations that are in step. -/

namespace Sys2Proof.Machine

/-- Two outcomes are in step: the first is an overflow of the counter, or both raise the same fault, or the second is
the first carried over by `carry`, and the first meets `P` (40_counter_guard.md R108; notes/assumptions/21.md). -/
inductive InStep {α β : Type} (P : α → Prop) (carry : α → β) : Except FaultCode α → Except FaultCode β → Prop where
  | overflow (x' : Except FaultCode β) : InStep P carry (.error .clockOverflow) x'
  | error (e : FaultCode) : InStep P carry (.error e) (.error e)
  | ok {a : α} (h : P a) : InStep P carry (.ok a) (.ok (carry a))

/-- The states that two outcomes lead to are in step, and the first can be shifted. -/
abbrev StateInStep (sub : Nat) (r : BitVec 32) : Except FaultCode State → Except FaultCode State → Prop :=
  InStep (State.Shiftable sub) (State.shifted sub r)

section
variable {α β γ δ : Type} {P : α → Prop} {Q : γ → Prop} {carry : α → β} {carry' : γ → δ}
  {x : Except FaultCode α} {x' : Except FaultCode β}

/-- In step first and in step after it, in step altogether. -/
theorem InStep.bind {f : α → Except FaultCode γ} {f' : β → Except FaultCode δ} (hx : InStep P carry x x')
    (hf : ∀ a, x = .ok a → P a → InStep Q carry' (f a) (f' (carry a))) : InStep Q carry' (x >>= f) (x' >>= f') := by
  cases hx with
  | overflow => exact .overflow _
  | error e => exact .error e
  | ok h => exact hf _ rfl h

/-- The same check in both, then in step. -/
theorem InStep.check {check : Except FaultCode Unit} {y : Except FaultCode γ} {y' : Except FaultCode δ}
    (h : check = .ok () → InStep Q carry' y y') :
    InStep Q carry' (check >>= fun _ => y) (check >>= fun _ => y') := by
  cases check with
  | error e => exact .error e
  | ok u => exact h rfl

theorem InStep.of_ok {a : α} {b : β} (h : P a) (hb : b = carry a) : InStep P carry (.ok a) (.ok b) := by
  subst hb
  exact .ok h

end

section
variable {sub k : Nat} {r : BitVec 32} {x : Channel} {c : Cycle} {s : State}

/-! ### Storing a cycle value -/

/-- A scheduled cycle that is stored on one time scale is stored shifted on the other (40_counter_guard.md R108). -/
theorem alarmSet_inStep {P : State → Prop} (a : Nat) {t : Nat} (hsub : sub ≤ t)
    (hP : t < neverNat → P (s.setAlarm a ⟨true, BitVec.ofNat 32 t⟩)) :
    InStep P (State.shifted sub r) (alarmSet a t s) (alarmSet a (t - sub) (s.shifted sub r)) := by
  by_cases ht : t < neverNat
  case pos =>
    have hal : (Alarm.mk true (BitVec.ofNat 32 t)).shifted sub = ⟨true, BitVec.ofNat 32 (t - sub)⟩ :=
      congrArg (Alarm.mk true) (shiftCycle_ofNat hsub ht)
    rw [alarmSet_ok ht, alarmSet_ok (Nat.lt_of_le_of_lt (Nat.sub_le t sub) ht), ← hal, State.setAlarm_shifted]
    exact .ok (hP ht)
  case neg =>
    rw [alarmSet_eq_error.mpr ⟨Nat.le_of_not_lt ht, rfl⟩]
    exact .overflow _

/-- Chip `k` with the next underflow of channel `x` at cycle `v`, its alarm armed there (43_chip_timers.md R170). -/
def scheduled (k : Nat) (x : Channel) (ch : Chan) (v : Nat) (s : State) : State :=
  (s.setChan k x { ch with u := BitVec.ofNat 32 v }).setAlarm (slotOf k x) ⟨true, BitVec.ofNat 32 v⟩

/-- How every rule that schedules an underflow does it: the cycle is stored in the channel and its alarm armed
(43_chip_timers.md R170, R190; 46_snapshot.md R266). -/
def schedule (k : Nat) (x : Channel) (ch : Chan) (v : Nat) (s : State) : Except FaultCode State := do
  let u ← cycleStore v
  alarmSet (slotOf k x) u.toNat (s.setChan k x { ch with u := u })

theorem schedule_of_lt {ch : Chan} {v : Nat} (h : v < neverNat) : schedule k x ch v s = .ok (scheduled k x ch v s) := by
  rw [schedule, cycleStore_ok h, ok_bind, toNat_ofNat_cycle h, alarmSet_ok h]
  rfl

theorem schedule_of_ge {ch : Chan} {v : Nat} (h : neverNat ≤ v) : schedule k x ch v s = .error .clockOverflow := by
  rw [schedule, cycleStore_eq_error.mpr ⟨h, rfl⟩, error_bind]

theorem OnlyChannel.scheduled (k : Nat) (x : Channel) (ch : Chan) (v : Nat) (s : State) :
    OnlyChannel k x s (scheduled k x ch v s) :=
  (OnlyChannel.setChan k x _ s).trans (OnlyChannel.setAlarm k x _ _)

theorem chip_scheduled {ch : Chan} {v : Nat} (hk : k < s.chips.length) :
    (scheduled k x ch v s).chip k = (s.chip k).setChan x { ch with u := BitVec.ofNat 32 v } :=
  State.chip_setChip_self s _ hk

theorem alarm_scheduled {ch : Chan} {v : Nat} (hslot : slotOf k x < s.alarms.length) :
    (scheduled k x ch v s).alarm (slotOf k x) = ⟨true, BitVec.ofNat 32 v⟩ :=
  State.alarm_setAlarm_self _ _ hslot

/-- A channel that counts cycles and is scheduled keeps a state shiftable. -/
theorem State.Shiftable.scheduled {ch : Chan} {v : Nat} (hs : s.Shiftable sub) (hk : k < s.cfg.nchip) (hsub : sub ≤ v)
    (hv : v < neverNat) (hrun : (s.chip k).chanState x = .running) : (scheduled k x ch v s).Shiftable sub := by
  have hchip := chip_scheduled (x := x) (ch := ch) (v := v) (hs.chip_lt hk)
  refine hs.onlyChannel (OnlyChannel.scheduled k x ch v s) ?_ (Chip.chanShiftable_running hsub hv ?_ ?_)
  · rw [alarm_scheduled (hs.slotOf_lt hk x)]
    exact Alarm.shiftable_armed hsub hv
  · rw [hchip, Chip.chan_setChan]
  · rw [hchip, Chip.chanState_congr (Chip.ctl_setChan _ x x _), hrun]

theorem scheduled_shifted {ch : Chan} {v : Nat} (hsub : sub ≤ v) (hv : v < neverNat) :
    scheduled k x (ch.shifted sub) (v - sub) (s.shifted sub r) = (scheduled k x ch v s).shifted sub r := by
  have hu := shiftCycle_ofNat hsub hv
  unfold scheduled
  rw [← State.setAlarm_shifted, ← State.setChan_shifted]
  unfold Alarm.shifted Chan.shifted
  rw [hu]

theorem schedule_inStep {P : State → Prop} {ch : Chan} {v : Nat} (hsub : sub ≤ v)
    (hP : v < neverNat → P (scheduled k x ch v s)) :
    InStep P (State.shifted sub r) (schedule k x ch v s)
      (schedule k x (ch.shifted sub) (v - sub) (s.shifted sub r)) := by
  by_cases hv : v < neverNat
  case pos =>
    rw [schedule_of_lt hv, schedule_of_lt (Nat.lt_of_le_of_lt (Nat.sub_le v sub) hv), scheduled_shifted hsub hv]
    exact .ok (hP hv)
  case neg =>
    rw [schedule_of_ge (Nat.le_of_not_lt hv)]
    exact .overflow _

/-! ### A channel that takes its underflows -/

/-- Whether an underflow is due does not see the shift (43_chip_timers.md R163). -/
theorem Chip.underflowDue_shifted {chip : Chip} (hchan : chip.ChanShiftable sub x) (hc : sub ≤ c.toNat)
    (hlt : c.toNat < neverNat) : (chip.shifted sub).UnderflowDue x (rebaseStamp sub c) ↔ chip.UnderflowDue x c := by
  have hle : shiftCycle sub (chip.chan x).u ≤ rebaseStamp sub c ↔ (chip.chan x).u ≤ c :=
    shiftCycle_le_rebaseStamp_iff hchan.u_ge hc hlt
  rw [Chip.UnderflowDue, Chip.chanState_shifted, Chip.chan_shifted, Chip.UnderflowDue]
  exact and_congr_right fun _ => hle

/-- The live counter does not see the shift (43_chip_timers.md R161). -/
theorem Chip.live_shifted {chip : Chip} (hchan : chip.ChanShiftable sub x) (hc : sub ≤ c.toNat) :
    (chip.shifted sub).live x (rebaseStamp sub c) = chip.live x c := by
  by_cases hrun : chip.chanState x = .running
  · have hu : ((chip.shifted sub).chan x).u.toNat = (chip.chan x).u.toNat - sub := by
      rw [Chip.chan_shifted]
      exact toNat_shiftCycle hchan.u_ge (hchan.running_iff.mp hrun)
    have hleft : (chip.chan x).u.toNat - sub - (c.toNat - sub) = (chip.chan x).u.toNat - c.toNat := by omega
    have hcnt : ((chip.shifted sub).chan x).cnt = (chip.chan x).cnt := by rw [Chip.chan_shifted]; rfl
    rw [Chip.live_of_running (by rwa [Chip.chanState_shifted]), Chip.live_of_running hrun, hu, hcnt, toNat_rebaseStamp,
      hleft]
  · rw [Chip.live_of_idle (by rwa [Chip.chanState_shifted]), Chip.live_of_idle hrun, Chip.chan_shifted]
    rfl

theorem storeLive_shifted (hs : s.Shiftable sub) (hc : sub ≤ c.toNat) :
    storeLive k (rebaseStamp sub c) (s.shifted sub r) = (storeLive k c s).shifted sub r := by
  have hA := Chip.live_shifted (hs.chan k .A) hc
  have hB := Chip.live_shifted (hs.chan k .B) hc
  unfold storeLive
  dsimp only
  rw [← State.setChip_shifted, State.chip_shifted, hA, hB]
  rfl

section
variable {chip : Chip}

theorem Chip.UnderflowDue.toNat_u (h : chip.UnderflowDue x c) (hchan : chip.ChanShiftable sub x) :
    ((chip.shifted sub).chan x).u.toNat = (chip.chan x).u.toNat - sub := by
  rw [Chip.chan_shifted]
  exact toNat_shiftCycle hchan.u_ge (hchan.running_iff.mp h.1)

theorem Chip.UnderflowDue.underflowsTo_shifted (h : chip.UnderflowDue x c) (hchan : chip.ChanShiftable sub x) :
    (chip.shifted sub).underflowsTo x (rebaseStamp sub c) = chip.underflowsTo x c := by
  have hlate : c.toNat - sub - ((chip.chan x).u.toNat - sub) = c.toNat - (chip.chan x).u.toNat := by
    have := hchan.u_ge
    omega
  unfold Chip.underflowsTo underflowCount
  rw [Chip.oneShot_shifted, Chip.period_shifted, h.toNat_u hchan, toNat_rebaseStamp, hlate]

theorem Chip.UnderflowDue.rescheduled_shifted (h : chip.UnderflowDue x c) (hchan : chip.ChanShiftable sub x) :
    (chip.shifted sub).rescheduled x (rebaseStamp sub c) = chip.rescheduled x c - sub := by
  unfold Chip.rescheduled
  rw [h.toNat_u hchan, h.underflowsTo_shifted hchan, Chip.period_shifted]
  exact (Nat.sub_add_comm hchan.u_ge).symm

theorem Chip.rescheduled_ge (hchan : chip.ChanShiftable sub x) : sub ≤ chip.rescheduled x c :=
  Nat.le_add_right_of_le hchan.u_ge

theorem Chip.UnderflowDue.uAfter_shifted (h : chip.UnderflowDue x c) (hchan : chip.ChanShiftable sub x)
    (hfits : chip.oneShot x = true ∨ chip.rescheduled x c < neverNat) :
    (chip.shifted sub).uAfter x (rebaseStamp sub c) = shiftCycle sub (chip.uAfter x c) := by
  unfold Chip.uAfter
  rw [Chip.oneShot_shifted, h.rescheduled_shifted hchan]
  cases hshot : chip.oneShot x with
  | true => rw [if_pos rfl, if_pos rfl, shiftCycle_never]
  | false =>
    rw [if_neg Bool.false_ne_true, if_neg Bool.false_ne_true,
      shiftCycle_ofNat (Chip.rescheduled_ge hchan) (hfits.resolve_left (by simp [hshot]))]

theorem Chip.UnderflowDue.reloaded_shifted (h : chip.UnderflowDue x c) (hchan : chip.ChanShiftable sub x)
    (hfits : chip.oneShot x = true ∨ chip.rescheduled x c < neverNat) :
    (chip.shifted sub).reloaded x (rebaseStamp sub c) = (chip.reloaded x c).shifted sub := by
  unfold Chip.reloaded
  rw [h.uAfter_shifted hchan hfits, h.underflowsTo_shifted hchan, Chip.chan_shifted]
  rfl

/-- The underflows taken are after the new origin, and at cycles up to `c` (43_chip_timers.md R163). -/
theorem Chip.UnderflowDue.underflows (h : chip.UnderflowDue x c) (hchan : chip.ChanShiftable sub x) :
    Underflows sub (chip.underflowsTo x c) (chip.chan x).u.toNat (chip.period x) := by
  refine ⟨hchan.u_ge, fun i hi => ?_⟩
  have hlast := Chip.lastUnderflow_le h
  have hmul := Nat.mul_le_mul_right (chip.period x) (Nat.le_sub_one_of_lt hi)
  have hc := c.isLt
  omega

theorem Chip.underflowsTo_pos (chip : Chip) (x : Channel) (c : Cycle) : 0 < chip.underflowsTo x c := by
  unfold Chip.underflowsTo underflowCount
  split
  · exact Nat.one_pos
  · exact Nat.add_pos_left Nat.one_pos _

end

theorem takeUnderflows_shifted (hchan : (s.chip k).ChanShiftable sub x) (hdue : (s.chip k).UnderflowDue x c)
    (hfits : (s.chip k).oneShot x = true ∨ (s.chip k).rescheduled x c < neverNat) :
    takeUnderflows k x (rebaseStamp sub c) (s.shifted sub r) = (takeUnderflows k x c s).shifted sub r := by
  have hslot : ((s.chip k).shifted sub).slotAfter x (rebaseStamp sub c) = ((s.chip k).slotAfter x c).shifted sub := by
    unfold Chip.slotAfter
    rw [hdue.uAfter_shifted hchan hfits, Chip.oneShot_shifted]
    rfl
  unfold takeUnderflows
  rw [State.chip_shifted, hslot, hdue.reloaded_shifted hchan hfits, stopOneShot_shifted, State.setChan_shifted,
    State.setAlarm_shifted]

theorem catchUpEffects_shifted (hchan : (s.chip k).ChanShiftable sub x) (hdue : (s.chip k).UnderflowDue x c)
    (hfits : (s.chip k).oneShot x = true ∨ (s.chip k).rescheduled x c < neverNat) :
    catchUpEffects k x (rebaseStamp sub c) (s.shifted sub r) = (catchUpEffects k x c s).shifted sub r := by
  unfold catchUpEffects
  rw [takeUnderflows_shifted hchan hdue hfits, State.chip_shifted, hdue.underflowsTo_shifted hchan, hdue.toNat_u hchan,
    Chip.period_shifted]
  exact (hdue.underflows hchan).underflowEffects (Chip.underflowsTo_pos _ x c) x

/-- A channel that has taken its underflows is scheduled anew, or has stopped (43_chip_timers.md R163). -/
theorem shiftable_takeUnderflows (hs : s.Shiftable sub) (hk : k < s.cfg.nchip) (hdue : (s.chip k).UnderflowDue x c)
    (hfits : (s.chip k).oneShot x = true ∨ (s.chip k).rescheduled x c < neverNat) :
    (takeUnderflows k x c s).Shiftable sub := by
  have hchan := hs.chan k x
  have honly : OnlyChannel k x s (takeUnderflows k x c s) :=
    ((OnlyChannel.stopOneShot k x s).trans (OnlyChannel.setChan k x _ _)).trans (OnlyChannel.setAlarm k x _ _)
  have hchip := chip_takeUnderflows (x := x) (c := c) (hs.chip_lt hk)
  have hu : (((takeUnderflows k x c s).chip k).chan x).u = (s.chip k).uAfter x c := by
    rw [hchip, Chip.chan_setChan]
    rfl
  have hctl : ((takeUnderflows k x c s).chip k).ctl x = (s.chip k).ctlAfter x := by
    rw [hchip, Chip.ctl_setChan, Chip.ctl_setCtl]
  have hnew : ((s.chip k).slotAfter x c).Shiftable sub ∧
      ((takeUnderflows k x c s).chip k).ChanShiftable sub x := by
    cases hshot : (s.chip k).oneShot x with
    | true =>
      have hstopped : ((takeUnderflows k x c s).chip k).chanState x = .stopped := by
        rw [Chip.chanState, hctl, Chip.ctlAfter, hshot, if_pos rfl, ctlState_clearStart]
      rw [Chip.slotAfter_eq, hshot, if_pos rfl]
      refine ⟨Alarm.shiftable_disarmed hs.sub_le_never, Chip.chanShiftable_idle hs.sub_le_never ?_ ?_⟩
      · rw [hu, Chip.uAfter, hshot, if_pos rfl]
      · rw [hstopped]
        exact nofun
    | false =>
      have hlt := hfits.resolve_left (by simp [hshot])
      have hafter : (s.chip k).uAfter x c = BitVec.ofNat 32 ((s.chip k).rescheduled x c) := by
        rw [Chip.uAfter, hshot]
        rfl
      rw [Chip.slotAfter_eq, hshot, hafter]
      refine ⟨Alarm.shiftable_armed (Chip.rescheduled_ge hchan) hlt,
        Chip.chanShiftable_running (Chip.rescheduled_ge hchan) hlt (hu.trans hafter) ?_⟩
      rw [Chip.chanState, hctl, Chip.ctlAfter, hshot]
      exact hdue.1
  refine hs.onlyChannel honly ?_ hnew.2
  rw [alarm_takeUnderflows_self (hs.slotOf_lt hk x)]
  exact hnew.1

/-! ### Reconciliation -/

/-- Catching up a channel is in step (43_chip_timers.md R163). -/
theorem chanCatchUp_inStep (hs : s.Shiftable sub) (hk : k < s.cfg.nchip) (hc : sub ≤ c.toNat)
    (hlt : c.toNat < neverNat) :
    StateInStep sub r (chanCatchUp k x c s) (chanCatchUp k x (rebaseStamp sub c) (s.shifted sub r)) := by
  have hchan := hs.chan k x
  have hiff := Chip.underflowDue_shifted hchan hc hlt
  by_cases hdue : (s.chip k).UnderflowDue x c
  case neg =>
    rw [chanCatchUp_of_not_due hdue, chanCatchUp_of_not_due (by rwa [State.chip_shifted, hiff])]
    exact .ok hs
  case pos =>
    have hdue' : ((s.shifted sub r).chip k).UnderflowDue x (rebaseStamp sub c) := by rwa [State.chip_shifted, hiff]
    by_cases hfits : (s.chip k).oneShot x = true ∨ (s.chip k).rescheduled x c < neverNat
    case pos =>
      have hfits' : ((s.shifted sub r).chip k).oneShot x = true ∨
          ((s.shifted sub r).chip k).rescheduled x (rebaseStamp sub c) < neverNat := by
        rw [State.chip_shifted, Chip.oneShot_shifted, hdue.rescheduled_shifted hchan]
        exact hfits.imp_right fun h => Nat.lt_of_le_of_lt (Nat.sub_le _ _) h
      rw [chanCatchUp_of_due hdue hfits, chanCatchUp_of_due hdue' hfits', catchUpEffects_shifted hchan hdue hfits]
      exact .ok ((shiftable_takeUnderflows hs hk hdue hfits).keepsSchedule (KeepsSchedule.underflowEffects k x _ _ _ _))
    case neg =>
      obtain ⟨hshot, hge⟩ := not_or.mp hfits
      rw [chanCatchUp_of_continuous hdue (by simpa using hshot), if_neg hge]
      exact .overflow _

/-- Reconciliation is in step at every cycle after the new origin and below `NEVER` (43_chip_timers.md R166). -/
theorem updateTo_inStep (hs : s.Shiftable sub) (hk : k < s.cfg.nchip) (hc : sub ≤ c.toNat) (hlt : c.toNat < neverNat) :
    StateInStep sub r (updateTo k c s) (updateTo k (rebaseStamp sub c) (s.shifted sub r)) := by
  have hrc : rebaseStamp sub c < ((s.chip k).shifted sub).rc ↔ c < (s.chip k).rc := rebaseStamp_lt_iff hc
  unfold updateTo
  rw [State.chip_shifted]
  by_cases hearly : c < (s.chip k).rc
  case pos =>
    rw [if_pos hearly, if_pos (hrc.mpr hearly)]
    exact .error _
  case neg =>
    rw [if_neg hearly, if_neg (mt hrc.mp hearly)]
    refine (chanCatchUp_inStep hs hk hc hlt).bind fun s₁ hA hs₁ => ?_
    have hk₁ : k < s₁.cfg.nchip := by rwa [(OnlyChip.chanCatchUp hA).cfg]
    refine (chanCatchUp_inStep hs₁ hk₁ hc hlt).bind fun s₂ _ hs₂ => ?_
    exact .of_ok (hs₂.keepsSchedule (KeepsSchedule.storeLive k c s₂)) (storeLive_shifted hs₂ hc)

end

end Sys2Proof.Machine
end

section
/-! The scheduler in step on the two time scales (40_counter_guard.md R108; 41_alarm_scheduler.md R128, R129): the same
slots are due, late by the same number of cycles. -/

namespace Sys2Proof.Machine

section
variable {sub k : Nat} {r : BitVec 32} {s t : State}

/-! ### A tick -/

theorem todAdvance_shifted {T : Cycle} (hT : sub ≤ T.toNat) :
    todAdvance k (rebaseStamp sub T) (s.shifted sub r) = (todAdvance k T s).shifted sub r := by
  have htick := s.modifyChip_shifted (sub := sub) (r := r) (f := fun c => { c with tod := todInc c.tod })
    (f' := fun c => { c with tod := todInc c.tod }) k rfl
  unfold todAdvance
  dsimp only
  rw [htick, State.chip_shifted, State.chip_shifted]
  split
  case isTrue hstop => rw [if_pos (show (s.chip k).todStopped = true from hstop)]
  case isFalse hstop =>
    rw [if_neg (show ¬(s.chip k).todStopped = true from hstop), setFlag_shifted flagAlarm hT]
    exact (apply_ite (State.shifted sub r) _ _ _).symm

theorem KeepsSchedule.todAdvance (k : Nat) (T : Cycle) (s : State) : KeepsSchedule k s (todAdvance k T s) :=
  ⟨OnlyChip.todAdvance k T s, todAdvance_alarms k T s, fun x => by rw [(chipTicked_todAdvance k T s).chan],
    fun x => by rw [Chip.chanState_congr ((chipTicked_todAdvance k T s).ctl x)]⟩

/-- The tick's slot is armed anew (45_chip_tod.md R243). -/
theorem State.Shiftable.setTodSlot {v : Nat} (hs : s.Shiftable sub) (hk : k < s.cfg.nchip) (hsub : sub ≤ v)
    (hv : v < neverNat) : (s.setAlarm (todSlot k) ⟨true, BitVec.ofNat 32 v⟩).Shiftable sub := by
  have hself := State.alarm_setAlarm_self s ⟨true, BitVec.ofNat 32 v⟩ (hs.todSlot_lt hk)
  refine hs.onlyChip (k := k) (OnlyChip.setAlarm (.inr (.inr rfl)) _ s) (fun x => ?_) ?_ (fun _ => ?_) (hs.chan k)
  · rw [State.alarm_setAlarm_ne _ _ (slotOf_ne_todSlot k k x)]
    exact hs.alarm _
  · rw [hself]
    exact Alarm.shiftable_armed hsub hv
  · rw [hself]

theorem todTick_inStep {T : Cycle} (hs : s.Shiftable sub) (hk : k < s.cfg.nchip) (hT : sub ≤ T.toNat) :
    StateInStep sub r (todTick k T s) (todTick k (rebaseStamp sub T) (s.shifted sub r)) := by
  have hkeeps := KeepsSchedule.todAdvance k T s
  have hnext : T.toNat - sub + s.cfg.todPeriod = T.toNat + s.cfg.todPeriod - sub := by omega
  unfold todTick
  dsimp only
  rw [todAdvance_shifted hT, State.shifted_cfg, hkeeps.cfg, toNat_rebaseStamp, hnext]
  have hsub : sub ≤ T.toNat + s.cfg.todPeriod := Nat.le_add_right_of_le hT
  exact alarmSet_inStep _ hsub fun hlt =>
    (hs.keepsSchedule hkeeps).setTodSlot (by rwa [hkeeps.cfg]) hsub hlt

/-! ### Due slots -/

theorem Alarm.due_shifted {al : Alarm} {c : Cycle} (h : al.Shiftable sub) (hc : sub ≤ c.toNat)
    (hlt : c.toNat < neverNat) : (al.shifted sub).due (rebaseStamp sub c) = al.due c := by
  have hle : decide ((al.shifted sub).target ≤ rebaseStamp sub c) = decide (al.target ≤ c) :=
    decide_eq_decide.mpr (shiftCycle_le_rebaseStamp_iff h.target_ge hc hlt)
  rw [Alarm.due, hle]
  rfl

/-- The target of a due slot is no `NEVER`, so it is shifted as a stamp is. -/
theorem Alarm.target_shifted_of_armed {al : Alarm} (h : al.Shiftable sub) (harmed : al.armed = true) :
    (al.shifted sub).target = rebaseStamp sub al.target :=
  shiftCycle_eq_rebaseStamp h.target_ge (h.armed_iff.mp harmed)

theorem State.Shiftable.due_shifted (hs : s.Shiftable sub) (a : Nat) :
    ((s.shifted sub r).alarm a).due (s.shifted sub r).clk = (s.alarm a).due s.clk := by
  rw [State.alarm_shifted]
  exact Alarm.due_shifted (hs.alarm a) hs.clk_ge hs.clk_lt

theorem State.length_alarms_shifted (s : State) : (s.shifted sub r).alarms.length = s.alarms.length :=
  List.length_map ..

theorem State.Shiftable.firstDue_shifted (hs : s.Shiftable sub) : (s.shifted sub r).firstDue = s.firstDue := by
  refine Option.ext fun a => ?_
  simp only [State.firstDue_eq_some, State.length_alarms_shifted, hs.due_shifted]

/-- A due slot is late by the same number of cycles (40_counter_guard.md R108). -/
theorem State.Shiftable.overrun_shifted (hs : s.Shiftable sub) {a : Nat} (harmed : (s.alarm a).armed = true) :
    (s.shifted sub r).clk.toNat - ((s.shifted sub r).alarm a).target.toNat =
      s.clk.toNat - (s.alarm a).target.toNat := by
  have hclk := hs.clk_ge
  have htarget := (hs.alarm a).target_ge
  rw [State.alarm_shifted, Alarm.target_shifted_of_armed (hs.alarm a) harmed, State.shifted_clk, toNat_rebaseStamp,
    toNat_rebaseStamp]
  omega

theorem State.Shiftable.lateness_shifted (hs : s.Shiftable sub) (a period : Nat) :
    ((s.shifted sub r).alarm a).lateness (s.shifted sub r).clk period = (s.alarm a).lateness s.clk period := by
  cases hdue : (s.alarm a).due s.clk with
  | true =>
    rw [Alarm.lateness_of_due hdue, Alarm.lateness_of_due (by rwa [hs.due_shifted]),
      hs.overrun_shifted (Alarm.due_iff.mp hdue).1]
  | false => rw [Alarm.lateness_of_not_due hdue, Alarm.lateness_of_not_due (by rwa [hs.due_shifted])]

theorem State.Shiftable.dispatchFuel_shifted (hs : s.Shiftable sub) :
    dispatchFuel (s.shifted sub r) = dispatchFuel s := by
  simp only [dispatchFuel_eq, State.length_alarms_shifted, hs.lateness_shifted, State.shifted_cfg]

/-! ### Callbacks -/

/-- An external slot is disarmed or armed: no chip's slot is touched (10_state.md R25). -/
theorem State.Shiftable.setExternal {a : Nat} {al : Alarm} (hs : s.Shiftable sub) (ha : 3 * s.cfg.nchip ≤ a)
    (hal : al.Shiftable sub) : (s.setAlarm a al).Shiftable sub where
  clk_ge := hs.clk_ge
  clk_lt := hs.clk_lt
  chips_length := hs.chips_length
  alarm := fun b => by
    rw [State.alarm_setAlarm]
    split
    · exact hal
    · exact hs.alarm b
  chan := hs.chan
  tod_armed := fun k hk => by
    have hk : k < s.cfg.nchip := hk
    rw [State.alarm_setAlarm_ne _ _ (by unfold todSlot; omega)]
    exact hs.tod_armed k hk

theorem fire_inStep {a : Nat} (overrun : Nat) (hs : s.Shiftable sub) (hdue : (s.alarm a).due s.clk = true) :
    StateInStep sub r (fire a overrun s) (fire a overrun (s.shifted sub r)) := by
  rcases slot_cases a s.cfg.nchip with ⟨k, x, hk, rfl⟩ | ⟨k, hk, rfl⟩ | ha
  · rw [fire_slotOf hk, fire_slotOf (s := s.shifted sub r) hk]
    exact updateTo_inStep hs hk hs.clk_ge hs.clk_lt
  · rw [fire_todSlot hk, fire_todSlot (s := s.shifted sub r) hk, State.alarm_shifted,
      Alarm.target_shifted_of_armed (hs.alarm _) (hs.tod_armed k hk)]
    exact todTick_inStep hs hk (hs.alarm _).target_ge
  · rw [fire_external (Nat.not_lt_of_le ha), fire_external (s := s.shifted sub r) (Nat.not_lt_of_le ha)]
    have hunset : (alarmUnset a s).Shiftable sub :=
      hs.setExternal ha (Alarm.shiftable_disarmed hs.sub_le_never)
    refine .of_ok (hunset.congr rfl rfl rfl rfl) ?_
    rw [alarmUnset_shifted, emit_shifted]

theorem dispatchLoop_inStep (fuel n : Nat) (hs : s.Shiftable sub) :
    InStep (fun p : State × Nat => p.1.Shiftable sub) (fun p => (p.1.shifted sub r, p.2))
      (dispatchLoop fuel n s) (dispatchLoop fuel n (s.shifted sub r)) := by
  induction fuel generalizing n s with
  | zero =>
    cases hfirst : s.firstDue with
    | none =>
      rw [dispatchLoop_none hfirst, dispatchLoop_none (by rwa [hs.firstDue_shifted])]
      exact .of_ok hs rfl
    | some a =>
      rw [dispatchLoop_zero hfirst, dispatchLoop_zero (a := a) (by rwa [hs.firstDue_shifted])]
      exact .error _
  | succ fuel ih =>
    cases hfirst : s.firstDue with
    | none =>
      rw [dispatchLoop_none hfirst, dispatchLoop_none (by rwa [hs.firstDue_shifted])]
      exact .of_ok hs rfl
    | some a =>
      have hdue := (State.firstDue_eq_some.mp hfirst).2.1
      rw [dispatchLoop_succ hfirst, dispatchLoop_succ (a := a) (by rwa [hs.firstDue_shifted]),
        hs.overrun_shifted (Alarm.due_iff.mp hdue).1]
      exact (fire_inStep _ hs hdue).bind fun s₁ _ hs₁ => ih (n + 1) hs₁

/-- A dispatch is in step, and invokes as many callbacks (41_alarm_scheduler.md R128). -/
theorem dispatch_inStep (hs : s.Shiftable sub) :
    InStep (fun p : State × Nat => p.1.Shiftable sub) (fun p => (p.1.shifted sub r, p.2))
      (dispatch s) (dispatch (s.shifted sub r)) := by
  unfold dispatch
  rw [hs.dispatchFuel_shifted]
  exact dispatchLoop_inStep _ 0 hs

end

end Sys2Proof.Machine
end

section
/-! The shapes of an operation's body, in step on the two time scales (40_counter_guard.md R108; 41_alarm_scheduler.md
R130; 44_chip_icr_sdr_ports.md R231, R232). -/

namespace Sys2Proof.Machine

/-- The answers of two bodies are in step, the reply carried over by `carry`. -/
abbrev BodyInStep (sub : Nat) (r : BitVec 32) (carry : Reply → Reply) : Result → Result → Prop :=
  InStep (fun p => p.1.Shiftable sub) (fun p => (p.1.shifted sub r, carry p.2))

/-- What the opening of an operation leaves of what the operation depends on beside the chips and slots. -/
structure SameOperands (s t : State) : Prop where
  cfg : t.cfg = s.cfg
  clk : t.clk = s.clk
  payloadIn : t.payloadIn = s.payloadIn

section
variable {sub k : Nat} {r : BitVec 32} {carry : Reply → Reply} {s : State} {body body' : State → Result}

/-- A change that can fault, with nothing returned. -/
theorem bodyInStep_effect {x x' : Except FaultCode State} (hx : StateInStep sub r x x') :
    BodyInStep sub r id (x >>= fun s => .ok (s, .nothing)) (x' >>= fun s => .ok (s, .nothing)) :=
  hx.bind fun _ _ hs => .of_ok hs rfl

theorem afterDispatch_inStep (hs : s.Shiftable sub)
    (hbody : ∀ t, SameOperands s t → t.Shiftable sub → BodyInStep sub r carry (body t) (body' (t.shifted sub r))) :
    BodyInStep sub r carry (afterDispatch s body) (afterDispatch (s.shifted sub r) body') := by
  refine (dispatch_inStep hs).bind fun p hdispatch hp => ?_
  have hkeeps := (DispatchKeeps.dispatch (n := p.2) hdispatch).1
  exact hbody p.1 ⟨hkeeps.cfg, hkeeps.clk, hkeeps.payloadIn⟩ hp

theorem onChip_inStep (hs : s.Shiftable sub)
    (hbody : ∀ t, SameOperands s t → t.Shiftable sub → k < t.cfg.nchip →
      BodyInStep sub r carry (body t) (body' (t.shifted sub r))) :
    BodyInStep sub r carry (onChip k s body) (onChip k (s.shifted sub r) body') := by
  refine InStep.check (check := selectChip k s) fun hk => ?_
  have hk := selectChip_eq_ok.mp hk
  exact afterDispatch_inStep hs fun t ht hst => hbody t ht hst (by rwa [ht.cfg])

theorem accessChip_inStep (hs : s.Shiftable sub)
    (hbody : ∀ t, SameOperands s t → t.Shiftable sub → k < t.cfg.nchip →
      BodyInStep sub r carry (body t) (body' (t.shifted sub r))) :
    BodyInStep sub r carry (accessChip k s body) (accessChip k (s.shifted sub r) body') := by
  refine onChip_inStep hs fun t ht hst hk => ?_
  refine (updateTo_inStep hst hk hst.clk_ge hst.clk_lt).bind fun u hupdate hsu => ?_
  have honly := OnlyChip.updateTo hupdate
  exact hbody u ⟨honly.cfg.trans ht.cfg, honly.clk.trans ht.clk, honly.payloadIn.trans ht.payloadIn⟩ hsu
    (by rwa [honly.cfg])

/-- A register read of a byte that does not see the shift. -/
theorem readChip_inStep {value : State → Byte} (hs : s.Shiftable sub)
    (hvalue : ∀ t, t.Shiftable sub → value (t.shifted sub r) = value t) :
    BodyInStep sub r id (readChip k value s) (readChip k value (s.shifted sub r)) :=
  accessChip_inStep hs fun t _ hst _ => .of_ok hst (by rw [hvalue t hst]; rfl)

/-- A register write that cannot fault and schedules nothing. -/
theorem writeChip_inStep {effect : State → State} (hs : s.Shiftable sub)
    (hkeeps : ∀ t, KeepsSchedule k t (effect t))
    (heffect : ∀ t, t.Shiftable sub → effect (t.shifted sub r) = (effect t).shifted sub r) :
    BodyInStep sub r id (writeChip k effect s) (writeChip k effect (s.shifted sub r)) :=
  accessChip_inStep hs fun t _ hst _ => .of_ok (hst.keepsSchedule (hkeeps t)) (by rw [heffect t hst]; rfl)

/-- A register write that can fault. -/
theorem writeChipE_inStep {effect : State → Except FaultCode State} (hs : s.Shiftable sub)
    (heffect : ∀ t, t.Shiftable sub → k < t.cfg.nchip → StateInStep sub r (effect t) (effect (t.shifted sub r))) :
    BodyInStep sub r id (writeChipE k effect s) (writeChipE k effect (s.shifted sub r)) :=
  accessChip_inStep hs fun t _ hst hk => bodyInStep_effect (heffect t hst hk)

/-! ### Replies -/

@[simp] theorem Reply.shift_status (i : Instr) (q : Reply) : (q.shift sub i).status = q.status := by
  unfold Reply.shift
  split
  · rfl
  · split <;> rfl

@[simp] theorem Reply.shift_payload (i : Instr) (q : Reply) : (q.shift sub i).payload = q.payload := by
  unfold Reply.shift
  split
  · rfl
  · split <;> rfl

/-- What an operation that did not complete answers is no cycle (60_exceptions.md R280). -/
theorem Reply.shift_of_status_ne (i : Instr) {q : Reply} (h : q.status ≠ 0) : q.shift sub i = q := if_pos h

theorem FaultCode.code_ne_zero (f : FaultCode) : f.code ≠ 0 := by cases f <;> decide

/-- An answer on the later time scale. -/
theorem State.answer_shifted (i : Instr) (q : Reply) :
    (s.shifted sub r).answer (q.shift sub i) = (s.answer q).shifted sub (q.shift sub i).resp := by
  unfold State.answer
  rw [Reply.shift_status, Reply.shift_payload]
  rfl

theorem takeFault_shifted (f : FaultCode) : takeFault f (s.shifted sub r) = (takeFault f s).shifted sub 0 := rfl

theorem refuseIn_shifted (f : FaultCode) : refuseIn f (s.shifted sub r) = (refuseIn f s).shifted sub 0 := rfl

/-- The operation ends in step: on the later time scale it leads to the shifted state and answers the shifted reply. -/
structure EndsInStep (sub : Nat) (i : Instr) (t : State) (o : Host.Outcome State Fault Refusal) : Prop where
  shiftable : t.Shiftable sub
  outcome : o = .next (t.shifted sub (t.reply.shift sub i).resp)

/-- An operation whose body is in step ends in step, however it ends but by an overflow (60_exceptions.md R287). -/
theorem perform_inStep {i : Instr} {t : State} (hs : s.Shiftable sub) (h : perform s body = .next t)
    (hfits : t.status ≠ 3)
    (hbody : s.fault = none → BodyInStep sub r (Reply.shift sub i) (body s) (body' (s.shifted sub r))) :
    EndsInStep sub i t (perform (s.shifted sub r) body') := by
  have hfailed (f : FaultCode) : ((Reply.failed f.code).shift sub i).resp = 0 := by
    rw [Reply.shift_of_status_ne i f.code_ne_zero, Reply.failed_resp]
  cases hfault : s.fault with
  | some f =>
    rw [perform_of_fault hfault] at h
    cases h
    refine ⟨hs.answer _, ?_⟩
    rw [perform_of_fault (s := s.shifted sub r) hfault, refuseIn_shifted]
    change _ = Host.Outcome.next ((refuseIn f s).shifted sub ((Reply.failed f.code).shift sub i).resp)
    rw [hfailed]
  | none =>
    replace hbody := hbody hfault
    rw [perform_of_none hfault] at h
    rw [perform_of_none (s := s.shifted sub r) hfault]
    generalize body s = x at h hbody
    generalize body' (s.shifted sub r) = x' at hbody
    cases hbody with
    | overflow =>
      cases h
      exact absurd rfl hfits
    | error e =>
      cases h
      refine ⟨hs.congr rfl rfl rfl rfl, ?_⟩
      rw [conclude_error, takeFault_shifted]
      change _ = Host.Outcome.next ((takeFault e s).shifted sub ((Reply.failed e.code).shift sub i).resp)
      rw [hfailed]
    | @ok p hp =>
      cases h
      refine ⟨hp.answer _, ?_⟩
      rw [conclude_ok, State.answer_shifted]
      rfl

/-- The same for an operation that returns no absolute cycle. -/
theorem perform_inStep_plain {i : Instr} {t : State} (hs : s.Shiftable sub) (h : perform s body = .next t)
    (hfits : t.status ≠ 3) (hbody : BodyInStep sub r id (body s) (body' (s.shifted sub r)))
    (hi : ∀ q, Reply.shift sub i q = q := by exact fun q => ite_self q) :
    EndsInStep sub i t (perform (s.shifted sub r) body') := by
  have hid : Reply.shift sub i = id := funext hi
  exact perform_inStep hs h hfits fun _ => by rwa [hid]

end

end Sys2Proof.Machine
end

section
/-! The effects of the chip operations, in step on the two time scales (40_counter_guard.md R108): reads of a byte and
writes that schedule nothing. -/

namespace Sys2Proof.Machine

section
variable {sub k : Nat} {r : BitVec 32} {s : State}

/-! ### Reads -/

/-- No register shows the shift (40_counter_guard.md R108). -/
theorem Chip.peek_shifted {c : Chip} {e : Cycle} (hchan : ∀ x, c.ChanShiftable sub x) (he : sub ≤ e.toNat) (g : Reg) :
    (c.shifted sub).peek g (rebaseStamp sub e) = c.peek g e := by
  have hlive (x : Channel) : (c.shifted sub).live x (rebaseStamp sub e) = c.live x e := Chip.live_shifted (hchan x) he
  cases g with
  | talo => exact congrArg lo8 (hlive .A)
  | tahi => exact congrArg hi8 (hlive .A)
  | tblo => exact congrArg lo8 (hlive .B)
  | tbhi => exact congrArg hi8 (hlive .B)
  | _ => rfl

theorem State.Shiftable.peek_shifted (hs : s.Shiftable sub) (k : Nat) (g : Reg) :
    ((s.shifted sub r).chip k).peek g (s.shifted sub r).clk = (s.chip k).peek g s.clk := by
  rw [State.chip_shifted]
  exact Chip.peek_shifted (hs.chan k) hs.clk_ge g

theorem State.portOut_shifted (s : State) (k : Nat) (p : PortId) : (s.shifted sub r).portOut k p = s.portOut k p := by
  rw [State.portOut, State.chip_shifted]
  cases p <;> rfl

/-! ### Writes that schedule nothing -/

theorem todRead_shifted (i : TodField) : todRead k i (s.shifted sub r) = (todRead k i s).shifted sub r :=
  s.modifyChip_shifted (f := fun c => { c with todLatch := c.todView, todLatched := decide (i ≠ .tenths) })
    (f' := fun c => { c with todLatch := c.todView, todLatched := decide (i ≠ .tenths) }) k rfl

theorem KeepsSchedule.todRead (k : Nat) (i : TodField) (s : State) : KeepsSchedule k s (todRead k i s) :=
  KeepsSchedule.setRegs rfl rfl rfl rfl

theorem todReadByte_shifted (i : TodField) : todReadByte k i (s.shifted sub r) = todReadByte k i s := by
  rw [todReadByte, State.chip_shifted]
  rfl

/-- The cycle of a destructive read is recorded on either time scale (44_chip_icr_sdr_ports.md R211). -/
theorem clearFlags_shifted (hs : s.Shiftable sub) :
    clearFlags k (s.shifted sub r) = (clearFlags k s).shifted sub r := by
  have hread : rebaseLastRead sub (some s.clk) = some (rebaseStamp sub s.clk) := if_pos hs.clk_ge
  have hchip := s.modifyChip_shifted (sub := sub) (r := r)
    (f := fun c => { c with flags := 0x00, lastRead := some s.clk })
    (f' := fun c => { c with flags := 0x00, lastRead := some (rebaseStamp sub s.clk) }) k
    (by rw [← hread]; rfl)
  unfold clearFlags
  rw [← updateLine_shifted]
  exact congrArg _ hchip

theorem KeepsSchedule.clearFlags (k : Nat) (s : State) : KeepsSchedule k s (clearFlags k s) := by
  have hchip : KeepsSchedule k s (s.setChip k { s.chip k with flags := 0x00, lastRead := some s.clk }) :=
    KeepsSchedule.setRegs rfl rfl rfl rfl
  exact hchip.trans (KeepsSchedule.updateLine k s.clk _)

theorem writeMask_shifted (v : Byte) : writeMask k v (s.shifted sub r) = (writeMask k v s).shifted sub r := by
  have hchip := s.modifyChip_shifted (sub := sub) (r := r) (f := fun c => { c with mask := maskWith c.mask v })
    (f' := fun c => { c with mask := maskWith c.mask v }) k rfl
  unfold writeMask
  rw [← updateLine_shifted]
  exact congrArg _ hchip

theorem KeepsSchedule.writeMask (k : Nat) (v : Byte) (s : State) : KeepsSchedule k s (writeMask k v s) := by
  have hchip : KeepsSchedule k s (s.setChip k { s.chip k with mask := maskWith (s.chip k).mask v }) :=
    KeepsSchedule.setRegs rfl rfl rfl rfl
  exact hchip.trans (KeepsSchedule.updateLine k s.clk _)

theorem writeSdr_shifted (v : Byte) : writeSdr k v (s.shifted sub r) = (writeSdr k v s).shifted sub r :=
  s.modifyChip_shifted (f := fun c => { c with sdr := v, srBits := if c.cra.getLsbD 6 then 16 else c.srBits })
    (f' := fun c => { c with sdr := v, srBits := if c.cra.getLsbD 6 then 16 else c.srBits }) k rfl

theorem KeepsSchedule.writeSdr (k : Nat) (v : Byte) (s : State) : KeepsSchedule k s (writeSdr k v s) :=
  KeepsSchedule.setRegs rfl rfl rfl rfl

theorem todWrite_shifted (i : TodField) (v : Byte) :
    todWrite k i v (s.shifted sub r) = (todWrite k i v s).shifted sub r := by
  unfold todWrite
  dsimp only
  rw [State.chip_shifted, Chip.crb_shifted]
  split
  · exact s.setChip_shifted k { s.chip k with todAlarm := (s.chip k).todAlarm.set i (v &&& todMask i) }
  · rw [← State.setChip_shifted]
    rfl

theorem KeepsSchedule.todWrite (k : Nat) (i : TodField) (v : Byte) (s : State) :
    KeepsSchedule k s (todWrite k i v s) := by
  unfold Machine.todWrite
  dsimp only
  split
  · exact KeepsSchedule.setRegs rfl rfl rfl rfl
  · exact KeepsSchedule.setRegs rfl rfl rfl rfl

theorem setPortIn_shifted (p : PortId) (v : Byte) :
    setPortIn k p v (s.shifted sub r) = (setPortIn k p v s).shifted sub r := by
  cases p with
  | a => exact s.modifyChip_shifted (f := fun c => { c with inA := v }) (f' := fun c => { c with inA := v }) k rfl
  | b => exact s.modifyChip_shifted (f := fun c => { c with inB := v }) (f' := fun c => { c with inB := v }) k rfl

theorem KeepsSchedule.setPortIn (k : Nat) (p : PortId) (v : Byte) (s : State) :
    KeepsSchedule k s (setPortIn k p v s) := by
  cases p <;> exact KeepsSchedule.setRegs rfl rfl rfl rfl

theorem pulseChannel_shifted (hs : s.Shiftable sub) (x : Channel) :
    pulseChannel k x (s.shifted sub r) = (pulseChannel k x s).shifted sub r := by
  unfold pulseChannel
  rw [State.chip_shifted, Chip.chanState_shifted, State.shifted_clk, toNat_rebaseStamp]
  split
  · exact countEvents_shifted hs.clk_ge s.clk.isLt x .runningExt
  · rfl

/-! ### Latch and control writes -/

/-- A latch write that goes through to a running channel reschedules it (43_chip_timers.md R190). -/
theorem writeLatchByte_eq (k : Nat) (x : Channel) (half : Half) (v : Byte) (s : State) :
    writeLatchByte k x half v s =
      if (s.chip k).chanState x = .running ∧ (s.chip k).live x s.clk = ((s.chip k).chan x).latch then
        schedule k x
          { (s.chip k).chan x with
            latch := latchWith ((s.chip k).chan x).latch half v
            cnt := latchWith ((s.chip k).chan x).latch half v }
          (max (((s.chip k).chan x).u.toNat - ((s.chip k).chan x).latch.toNat +
            (latchWith ((s.chip k).chan x).latch half v).toNat) (s.clk.toNat + 1)) s
      else .ok (s.setChan k x { (s.chip k).chan x with latch := latchWith ((s.chip k).chan x).latch half v }) := rfl

theorem writeLatchByte_inStep (hs : s.Shiftable sub) (hk : k < s.cfg.nchip) (x : Channel) (half : Half) (v : Byte) :
    StateInStep sub r (writeLatchByte k x half v s) (writeLatchByte k x half v (s.shifted sub r)) := by
  have hchan := hs.chan k x
  have hlatch : (((s.chip k).shifted sub).chan x).latch = ((s.chip k).chan x).latch := by rw [Chip.chan_shifted]; rfl
  rw [writeLatchByte_eq, writeLatchByte_eq, State.chip_shifted, Chip.chanState_shifted, State.shifted_clk,
    Chip.live_shifted hchan hs.clk_ge, hlatch]
  split
  case isTrue h =>
    obtain ⟨hrun, hlive⟩ := h
    have hu : (((s.chip k).shifted sub).chan x).u.toNat = ((s.chip k).chan x).u.toNat - sub := by
      rw [Chip.chan_shifted]
      exact toNat_shiftCycle hchan.u_ge (hchan.running_iff.mp hrun)
    have hcount : ((s.chip k).chan x).latch.toNat ≤ ((s.chip k).chan x).u.toNat - s.clk.toNat := by
      rw [← hlive, Chip.live_of_running hrun, toNat_ofNat_min_count]
      exact Nat.min_le_right _ _
    have hclk := hs.clk_ge
    have hge := hchan.u_ge
    generalize hnew : latchWith ((s.chip k).chan x).latch half v = new
    generalize hnext : max (((s.chip k).chan x).u.toNat - ((s.chip k).chan x).latch.toNat + new.toNat)
      (s.clk.toNat + 1) = next
    have hnext' : max (((s.chip k).chan x).u.toNat - sub - ((s.chip k).chan x).latch.toNat + new.toNat)
        (s.clk.toNat - sub + 1) = next - sub := by omega
    rw [hu, toNat_rebaseStamp, hnext', Chip.chan_shifted]
    have hsub : sub ≤ next := by omega
    exact schedule_inStep hsub fun hlt => hs.scheduled hk hsub hlt hrun
  case isFalse =>
    refine .of_ok (hs.keepsSchedule (KeepsSchedule.setChan rfl)) ?_
    rw [← State.setChan_shifted, Chip.chan_shifted]
    rfl

end

end Sys2Proof.Machine
end

section
/-! The operations that start, stop and reset channels, in step on the two time scales (40_counter_guard.md R108;
43_chip_timers.md R170; 46_snapshot.md R266; 70_reset_and_hazards.md R312). -/

namespace Sys2Proof.Machine

section
variable {sub k : Nat} {x : Channel} {v : Byte} {r : BitVec 32} {s t : State}

/-! ### Control writes -/

/-- The load strobe is no part of the channel state (10_state.md R37). -/
theorem ctlState_eq_running_iff (x : Channel) (v : Byte) :
    ctlState x (v &&& 0xEF) = .running ↔ countsClock x v = true := by
  have hbit (i : Nat) (hi : (0xEF : Byte).getLsbD i = true) : (v &&& 0xEF).getLsbD i = v.getLsbD i := by
    rw [BitVec.getLsbD_and, hi, Bool.and_true]
  cases x with
  | A =>
    dsimp only [ctlState, countsClock, selectsClock]
    rw [hbit 0 (by decide), hbit 5 (by decide)]
    cases v.getLsbD 0 <;> cases v.getLsbD 5 <;> decide
  | B =>
    dsimp only [ctlState, countsClock, selectsClock]
    rw [hbit 0 (by decide), hbit 5 (by decide), hbit 6 (by decide)]
    cases v.getLsbD 0 <;> cases v.getLsbD 5 <;> cases v.getLsbD 6 <;> decide

/-- A channel and its slot are brought in line with the control byte, then the byte is stored (43_chip_timers.md
R170). -/
theorem State.Shiftable.setCtl_of (hs : s.Shiftable sub) (hk : k < s.cfg.nchip) (honly : OnlyChannel k x s t)
    (hslot : (t.alarm (slotOf k x)).Shiftable sub) (hu : sub ≤ ((t.chip k).chan x).u.toNat)
    (hrun : countsClock x v = true ↔ ((t.chip k).chan x).u ≠ never) : (t.setCtl k x (v &&& 0xEF)).Shiftable sub := by
  have hlt : k < t.chips.length := by rw [honly.chips_length]; exact hs.chip_lt hk
  have hchip : (t.setCtl k x (v &&& 0xEF)).chip k = (t.chip k).setCtl x (v &&& 0xEF) := State.chip_setChip_self t _ hlt
  refine hs.onlyChannel (honly.trans (OnlyChannel.setCtl k x _ t)) hslot ⟨?_, ?_⟩
  · rw [hchip, Chip.chan_setCtl]
    exact hu
  · rw [hchip, Chip.chan_setCtl, Chip.chanState, Chip.ctl_setCtl, ctlState_eq_running_iff]
    exact hrun

theorem shiftable_setCtl_scheduled {ch : Chan} {c : Nat} (hs : s.Shiftable sub) (hk : k < s.cfg.nchip)
    (hsub : sub ≤ c) (hc : c < neverNat) (hcounts : countsClock x v = true) :
    ((scheduled k x ch c s).setCtl k x (v &&& 0xEF)).Shiftable sub := by
  have hnat := toNat_ofNat_cycle hc
  have hne := ne_never_of_lt (show (BitVec.ofNat 32 c).toNat < neverNat by rwa [hnat])
  have hu : (((scheduled k x ch c s).chip k).chan x).u = BitVec.ofNat 32 c := by
    rw [chip_scheduled (hs.chip_lt hk), Chip.chan_setChan]
  refine hs.setCtl_of hk (OnlyChannel.scheduled k x ch c s) ?_ ?_ ?_
  · rw [alarm_scheduled (hs.slotOf_lt hk x)]
    exact Alarm.shiftable_armed hsub hc
  · rwa [hu, hnat]
  · rw [hu]
    exact ⟨fun _ => hne, fun _ => hcounts⟩

/-- A write that leaves the next underflow and its slot alone fits a byte that leaves the count of cycles alone. -/
theorem State.Shiftable.setCtl_kept (hs : s.Shiftable sub) (hk : k < s.cfg.nchip) (honly : OnlyChannel k x s t)
    (hslot : t.alarm (slotOf k x) = s.alarm (slotOf k x)) (hu : ((t.chip k).chan x).u = ((s.chip k).chan x).u)
    (hrun : (s.chip k).chanState x = .running ↔ countsClock x v = true) :
    (t.setCtl k x (v &&& 0xEF)).Shiftable sub := by
  have hchan := hs.chan k x
  refine hs.setCtl_of hk honly ?_ ?_ ?_
  · rw [hslot]
    exact hs.alarm _
  · rw [hu]
    exact hchan.u_ge
  · rw [hu, ← hrun]
    exact hchan.running_iff

/-- The control byte can be stored after the write's effect (43_chip_timers.md R170). -/
abbrev FitsCtl (sub k : Nat) (x : Channel) (v : Byte) (t : State) : Prop := (t.setCtl k x (v &&& 0xEF)).Shiftable sub

/-- The channel that a start or a load leaves, before its next underflow is stored (43_chip_timers.md R170). -/
def Chan.loaded (ch : Chan) (load : Bool) : Chan := { ch with cnt := if load then ch.latch else ch.cnt }

theorem Chan.loaded_shifted (ch : Chan) (load : Bool) :
    (ch.shifted sub).loaded load = (ch.loaded load).shifted sub := rfl

theorem startChannel_eq (k : Nat) (x : Channel) (load : Bool) (s : State) :
    startChannel k x load s =
      schedule k x (((s.chip k).chan x).loaded load)
        (s.clk.toNat + ((((s.chip k).chan x).loaded load).cnt.toNat + 1 + load.toNat)) s := by
  rw [← Nat.add_assoc, ← Nat.add_assoc]
  rfl

theorem reloadRunning_eq (k : Nat) (x : Channel) (s : State) :
    reloadRunning k x s =
      schedule k x (((s.chip k).chan x).loaded true) (s.clk.toNat + (((s.chip k).chan x).latch.toNat + 2)) s := rfl

/-- A channel is scheduled a number of cycles after `clk` (43_chip_timers.md R170). -/
theorem schedule_after_clk_inStep {P : State → Prop} {ch : Chan} (hs : sub ≤ s.clk.toNat) (d : Nat)
    (hP : s.clk.toNat + d < neverNat → P (scheduled k x ch (s.clk.toNat + d) s)) :
    InStep P (State.shifted sub r) (schedule k x ch (s.clk.toNat + d) s)
      (schedule k x (ch.shifted sub) ((s.shifted sub r).clk.toNat + d) (s.shifted sub r)) := by
  have hnext : (s.shifted sub r).clk.toNat + d = s.clk.toNat + d - sub := by
    rw [State.shifted_clk, toNat_rebaseStamp]
    omega
  rw [hnext]
  exact schedule_inStep (Nat.le_add_right_of_le hs) hP

theorem startChannel_inStep (load : Bool) (hs : s.Shiftable sub) (hk : k < s.cfg.nchip)
    (hcounts : countsClock x v = true) :
    InStep (FitsCtl sub k x v) (State.shifted sub r) (startChannel k x load s)
      (startChannel k x load (s.shifted sub r)) := by
  rw [startChannel_eq, startChannel_eq, State.chip_shifted, Chip.chan_shifted, Chan.loaded_shifted]
  exact schedule_after_clk_inStep hs.clk_ge _ fun hlt =>
    shiftable_setCtl_scheduled hs hk (Nat.le_add_right_of_le hs.clk_ge) hlt hcounts

theorem reloadRunning_inStep (hs : s.Shiftable sub) (hk : k < s.cfg.nchip) (hcounts : countsClock x v = true) :
    InStep (FitsCtl sub k x v) (State.shifted sub r) (reloadRunning k x s) (reloadRunning k x (s.shifted sub r)) := by
  rw [reloadRunning_eq, reloadRunning_eq, State.chip_shifted, Chip.chan_shifted, Chan.loaded_shifted]
  exact schedule_after_clk_inStep hs.clk_ge _ fun hlt =>
    shiftable_setCtl_scheduled hs hk (Nat.le_add_right_of_le hs.clk_ge) hlt hcounts

theorem stopChannel_shifted (load : Bool) (hs : s.Shiftable sub) :
    stopChannel k x load (s.shifted sub r) = (stopChannel k x load s).shifted sub r := by
  unfold stopChannel
  dsimp only
  rw [State.chip_shifted, State.shifted_clk, Chip.live_shifted (hs.chan k x) hs.clk_ge, ← alarmUnset_shifted,
    ← State.setChan_shifted, Chip.chan_shifted]
  unfold Chan.shifted
  rw [shiftCycle_never]

theorem fitsCtl_stopChannel (load : Bool) (hs : s.Shiftable sub) (hk : k < s.cfg.nchip)
    (hcounts : countsClock x v = false) : FitsCtl sub k x v (stopChannel k x load s) := by
  have honly : OnlyChannel k x s (stopChannel k x load s) :=
    (OnlyChannel.setChan k x _ s).trans (OnlyChannel.setAlarm k x _ _)
  have hslot : (stopChannel k x load s).alarm (slotOf k x) = ⟨false, never⟩ :=
    State.alarm_setAlarm_self _ _ (hs.slotOf_lt hk x)
  have hu : (((stopChannel k x load s).chip k).chan x).u = never := by
    have hchip : (stopChannel k x load s).chip k = (s.chip k).setChan x
        { (s.chip k).chan x with
          cnt := if load then ((s.chip k).chan x).latch else satDec ((s.chip k).live x s.clk), u := never } :=
      State.chip_setChip_self s _ (hs.chip_lt hk)
    rw [hchip, Chip.chan_setChan]
  refine hs.setCtl_of hk honly ?_ ?_ ?_
  · rw [hslot]
    exact Alarm.shiftable_disarmed hs.sub_le_never
  · rw [hu]
    exact hs.sub_le_never
  · rw [hu, hcounts]
    exact ⟨fun h => (nomatch h), fun h => absurd rfl h⟩

theorem loadIdle_shifted (s : State) : loadIdle k x (s.shifted sub r) = (loadIdle k x s).shifted sub r := by
  unfold loadIdle
  dsimp only
  rw [State.chip_shifted, Chip.chan_shifted, ← State.setChan_shifted]
  rfl

theorem fitsCtl_self (hs : s.Shiftable sub) (hk : k < s.cfg.nchip)
    (hrun : (s.chip k).chanState x = .running ↔ countsClock x v = true) : FitsCtl sub k x v s :=
  hs.setCtl_kept hk (OnlyChannel.refl k x s) rfl rfl hrun

theorem fitsCtl_loadIdle (hs : s.Shiftable sub) (hk : k < s.cfg.nchip)
    (hrun : (s.chip k).chanState x = .running ↔ countsClock x v = true) : FitsCtl sub k x v (loadIdle k x s) := by
  refine hs.setCtl_kept hk (OnlyChannel.setChan k x _ s) rfl ?_ hrun
  have hchip : (loadIdle k x s).chip k =
    (s.chip k).setChan x { (s.chip k).chan x with cnt := ((s.chip k).chan x).latch } :=
    State.chip_setChip_self s _ (hs.chip_lt hk)
  rw [hchip, Chip.chan_setChan]

/-- The four cases of a control write are in step (43_chip_timers.md R170). -/
theorem controlEffect_inStep (hs : s.Shiftable sub) (hk : k < s.cfg.nchip) (x : Channel) (v : Byte) :
    InStep (FitsCtl sub k x v) (State.shifted sub r) (controlEffect k x v s)
      (controlEffect k x v (s.shifted sub r)) := by
  unfold controlEffect
  rw [State.chip_shifted, Chip.chanState_shifted]
  cases hcounts : countsClock x v with
  | true =>
    by_cases hrun : (s.chip k).chanState x = .running
    · rw [decide_eq_true hrun]
      dsimp only
      split
      · exact reloadRunning_inStep hs hk hcounts
      · exact .ok (fitsCtl_self hs hk (by simp [hrun, hcounts]))
    · rw [decide_eq_false hrun]
      exact startChannel_inStep _ hs hk hcounts
  | false =>
    by_cases hrun : (s.chip k).chanState x = .running
    · rw [decide_eq_true hrun]
      exact .of_ok (fitsCtl_stopChannel _ hs hk hcounts) (stopChannel_shifted _ hs)
    · rw [decide_eq_false hrun]
      dsimp only
      split
      · exact .of_ok (fitsCtl_loadIdle hs hk (by simp [hrun, hcounts])) (loadIdle_shifted s)
      · exact .ok (fitsCtl_self hs hk (by simp [hrun, hcounts]))

theorem writeControl_inStep (hs : s.Shiftable sub) (hk : k < s.cfg.nchip) (x : Channel) (v : Byte) :
    StateInStep sub r (writeControl k x v s) (writeControl k x v (s.shifted sub r)) :=
  (controlEffect_inStep hs hk x v).bind fun t _ ht => .of_ok ht (t.setCtl_shifted x k _)

/-! ### Chip reset -/

theorem Chip.blank_shifted (latchA latchB : Count) (c : Cycle) :
    (Chip.blank latchA latchB c).shifted sub = Chip.blank latchA latchB (rebaseStamp sub c) := by
  simp only [Chip.shifted, Chip.blank, Chan.shifted, shiftCycle_never, rebaseLastRead]

theorem blankChip_shifted (k : Nat) (c : Cycle) (s : State) :
    blankChip k (rebaseStamp sub c) (s.shifted sub r) = (blankChip k c s).shifted sub r := by
  unfold blankChip
  rw [← Chip.blank_shifted]
  unfold State.shifted
  rw [List.map_set]

/-- A channel after a reset counts nothing (70_reset_and_hazards.md R312). -/
theorem Chip.chanShiftable_blank (hsub : sub ≤ neverNat) (latchA latchB : Count) (c : Cycle) (x : Channel) :
    (Chip.blank latchA latchB c).ChanShiftable sub x := by
  have hctl : (Chip.blank latchA latchB c).ctl x = 0x00 := by cases x <;> rfl
  refine Chip.chanShiftable_idle hsub (by cases x <;> rfl) ?_
  rw [Chip.chanState, hctl]
  cases x <;> decide

/-- The slots of a chip's channels are disarmed, in a reset or a restore (46_snapshot.md R266; 70_reset_and_hazards.md
R312). -/
def unarmed (k : Nat) (s : State) : State := alarmUnset (slotOf k .B) (alarmUnset (slotOf k .A) s)

theorem unarmed_shifted (k : Nat) (s : State) : unarmed k (s.shifted sub r) = (unarmed k s).shifted sub r := by
  rw [unarmed, alarmUnset_shifted, alarmUnset_shifted, unarmed]

theorem OnlyChip.unarmed (k : Nat) (s : State) : OnlyChip k s (unarmed k s) :=
  (OnlyChip.alarmUnset k .A s).trans (OnlyChip.alarmUnset k .B _)

theorem alarm_unarmed (k : Nat) (x : Channel) (s : State) : (unarmed k s).alarm (slotOf k x) = ⟨false, never⟩ := by
  unfold unarmed
  rw [alarm_alarmUnset, alarm_alarmUnset]
  cases x with
  | A => rw [if_pos rfl, ite_self]; rfl
  | B => rw [if_pos rfl]; rfl

/-- The slots and channels of chip `k` that a reset or a restore leaves, and its tick armed anew. -/
theorem State.Shiftable.armTod {c : Nat} (hs : s.Shiftable sub) (hk : k < s.cfg.nchip) (honly : OnlyChip k s t)
    (hslot : ∀ x, (t.alarm (slotOf k x)).Shiftable sub) (hchan : ∀ x, (t.chip k).ChanShiftable sub x) (hsub : sub ≤ c)
    (hc : c < neverNat) : (t.setAlarm (todSlot k) ⟨true, BitVec.ofNat 32 c⟩).Shiftable sub := by
  have hlt : todSlot k < t.alarms.length := by
    rw [honly.alarms_length]
    exact hs.todSlot_lt hk
  have hself := State.alarm_setAlarm_self t ⟨true, BitVec.ofNat 32 c⟩ hlt
  refine hs.onlyChip (honly.trans (OnlyChip.setAlarm (.inr (.inr rfl)) _ t)) (fun x => ?_) ?_ (fun _ => ?_) hchan
  · rw [State.alarm_setAlarm_ne _ _ (slotOf_ne_todSlot k k x)]
    exact hslot x
  · rw [hself]
    exact Alarm.shiftable_armed hsub hc
  · rw [hself]

theorem OnlyChip.blankChip (k : Nat) (c : Cycle) (s : State) : OnlyChip k s (blankChip k c s) := by
  refine (OnlyChip.setChip k (Chip.blank (Config.freeLatch s.draws) (Config.freeLatch (s.draws + 1)) c) s).trans ?_
  constructor <;> intros <;> rfl

theorem chipReset_eq (k : Nat) (c : Cycle) (s : State) :
    chipReset k c s =
      (alarmSet (todSlot k) (c.toNat + s.cfg.todPeriod) (unarmed k (blankChip k c s)) >>= fun s =>
        .ok (aggSet k false c s)) := rfl

theorem chipReset_inStep (hs : s.Shiftable sub) (hk : k < s.cfg.nchip) :
    StateInStep sub r (chipReset k s.clk s) (chipReset k (s.shifted sub r).clk (s.shifted sub r)) := by
  have honly : OnlyChip k s (unarmed k (blankChip k s.clk s)) :=
    (OnlyChip.blankChip k s.clk s).trans (OnlyChip.unarmed k _)
  have hchip : (unarmed k (blankChip k s.clk s)).chip k =
      Chip.blank (Config.freeLatch s.draws) (Config.freeLatch (s.draws + 1)) s.clk :=
    State.chip_setChip_self s _ (hs.chip_lt hk)
  have hclk := hs.clk_ge
  have hnext : s.clk.toNat - sub + s.cfg.todPeriod = s.clk.toNat + s.cfg.todPeriod - sub := by omega
  have hsub : sub ≤ s.clk.toNat + s.cfg.todPeriod := Nat.le_add_right_of_le hclk
  rw [chipReset_eq, chipReset_eq, State.shifted_clk, State.shifted_cfg, toNat_rebaseStamp, hnext, blankChip_shifted,
    unarmed_shifted]
  refine (alarmSet_inStep (P := State.Shiftable sub) _ hsub fun hlt => ?_).bind fun t _ ht => ?_
  · refine hs.armTod hk honly (fun x => ?_) (fun x => ?_) hsub hlt
    · rw [alarm_unarmed]
      exact Alarm.shiftable_disarmed hs.sub_le_never
    · rw [hchip]
      exact Chip.chanShiftable_blank hs.sub_le_never _ _ _ x
  · refine .of_ok (ht.congr ?_ ?_ ?_ ?_) (aggSet_shifted t k false s.clk)
    · exact aggSet_cfg ..
    · exact aggSet_clk ..
    · exact aggSet_alarms ..
    · exact aggSet_chips ..

/-! ### Restore -/

/-- The recorded read of a payload is shifted, or dropped where it was before the new origin (46_snapshot.md R263). -/
theorem lastReadOf_shifted (cfg : Config) (b : Byte) {c : Cycle} (hc : sub ≤ c.toNat) :
    lastReadOf cfg b (rebaseStamp sub c) = rebaseLastRead sub (lastReadOf cfg b c) := by
  unfold lastReadOf
  rw [toNat_rebaseStamp]
  generalize b.toNat - cfg.snapRdiBias = d
  by_cases hbias : b.toNat < cfg.snapRdiBias
  case pos => rw [if_pos (.inl hbias), if_pos (.inl hbias)]; rfl
  case neg =>
    have hcLt := c.isLt
    have hnat : (BitVec.ofNat 32 (c.toNat - d)).toNat = c.toNat - d := by
      rw [BitVec.toNat_ofNat]
      exact Nat.mod_eq_of_lt (by omega)
    by_cases hold : c.toNat < d
    case pos => rw [if_pos (.inr (by omega)), if_pos (.inr hold)]; rfl
    case neg =>
      rw [if_neg (c := _ ∨ d > c.toNat) (by omega), rebaseLastRead, hnat]
      by_cases hkept : sub ≤ c.toNat - d
      · have hcomm : c.toNat - sub - d = c.toNat - d - sub := Nat.sub_right_comm ..
        rw [if_neg (by omega), if_pos hkept, hcomm]
      · rw [if_pos (.inr (by omega)), if_neg hkept]

theorem restoredChip_shifted (cfg : Config) (p : List Byte) (chip : Chip) {c : Cycle} (hc : sub ≤ c.toNat) :
    restoredChip cfg (rebaseStamp sub c) p (chip.shifted sub) = (restoredChip cfg c p chip).shifted sub := by
  simp only [restoredChip, Chip.shifted, Chan.shifted, shiftCycle_never, lastReadOf_shifted cfg _ hc]

/-- Chip `k` as a payload gives it, its slots disarmed (46_snapshot.md R266). -/
def restored (k : Nat) (p : List Byte) (s : State) : State :=
  let s := alarmUnset (todSlot k) (unarmed k s)
  s.setChip k (restoredChip s.cfg s.clk p (s.chip k))

theorem restored_shifted (p : List Byte) (hs : sub ≤ s.clk.toNat) :
    restored k p (s.shifted sub r) = (restored k p s).shifted sub r := by
  unfold restored
  dsimp only
  rw [unarmed_shifted, alarmUnset_shifted, State.shifted_cfg, State.shifted_clk, State.chip_shifted]
  have hclk : sub ≤ (alarmUnset (todSlot k) (unarmed k s)).clk.toNat := hs
  rw [restoredChip_shifted _ _ _ hclk, State.setChip_shifted]

theorem OnlyChip.restored (k : Nat) (p : List Byte) (s : State) : OnlyChip k s (restored k p s) := by
  refine ((OnlyChip.unarmed k s).trans ?_).trans (OnlyChip.setChip k _ _)
  exact OnlyChip.setAlarm (.inr (.inr rfl)) _ _

theorem restoreFrom_eq (k : Nat) (p : List Byte) (s : State) :
    restoreFrom k p s =
      (rearmChannel k .A (restored k p s) >>= fun s => rearmChannel k .B s >>= fun s =>
        alarmSet (todSlot k) (s.clk.toNat + tickDelta p) s >>= fun s => .ok (updateLine k s.clk s)) := rfl

theorem rearmChannel_eq (k : Nat) (x : Channel) (s : State) :
    rearmChannel k x s =
      if (s.chip k).chanState x = .running then
        schedule k x ((s.chip k).chan x) (s.clk.toNat + max ((s.chip k).chan x).cnt.toNat 1) s
      else .ok s := rfl

/-- Channel `x` of chip `k` has no underflow to come (46_snapshot.md R266). -/
structure Unarmed (k : Nat) (x : Channel) (s : State) : Prop where
  u : ((s.chip k).chan x).u = never
  slot : s.alarm (slotOf k x) = ⟨false, never⟩

/-- Channel `x` of chip `k` and its slot can be shifted. -/
structure Rearmed (sub k : Nat) (x : Channel) (s : State) : Prop where
  chan : (s.chip k).ChanShiftable sub x
  slot : (s.alarm (slotOf k x)).Shiftable sub

theorem Unarmed.of_restored (p : List Byte) (hk : k < s.chips.length) (x : Channel) : Unarmed k x (restored k p s) where
  u := by
    have hchip : (restored k p s).chip k = restoredChip s.cfg s.clk p (s.chip k) := State.chip_setChip_self _ _ hk
    rw [hchip]
    cases x <;> rfl
  slot := by
    change (alarmUnset (todSlot k) (unarmed k s)).alarm (slotOf k x) = _
    rw [alarm_alarmUnset, if_neg (slotOf_ne_todSlot k k x), alarm_unarmed]

theorem Unarmed.onlyChannel {y : Channel} (h : Unarmed k y s) (honly : OnlyChannel k x s t) (hy : y ≠ x) :
    Unarmed k y t where
  u := by rw [honly.chan y hy, h.u]
  slot := by rw [honly.slot _ fun heq => hy (slotOf_inj heq).2, h.slot]

theorem Rearmed.onlyChannel {y : Channel} (h : Rearmed sub k y s) (honly : OnlyChannel k x s t) (hy : y ≠ x) :
    Rearmed sub k y t where
  chan := h.chan.congr (by rw [honly.chan y hy]) (by rw [Chip.chanState_congr (honly.ctl y hy)])
  slot := by
    rw [honly.slot _ fun heq => hy (slotOf_inj heq).2]
    exact h.slot

/-- A channel is armed again in step, and the other left alone (46_snapshot.md R266). -/
theorem rearmChannel_inStep (hunarmed : Unarmed k x s) (hclk : sub ≤ s.clk.toNat) (hlt : s.clk.toNat < neverNat)
    (hk : k < s.chips.length) (hslot : slotOf k x < s.alarms.length) :
    InStep (fun t => OnlyChannel k x s t ∧ Rearmed sub k x t) (State.shifted sub r) (rearmChannel k x s)
      (rearmChannel k x (s.shifted sub r)) := by
  have hnever : sub ≤ neverNat := Nat.le_trans hclk (Nat.le_of_lt hlt)
  rw [rearmChannel_eq, rearmChannel_eq, State.chip_shifted, Chip.chanState_shifted, Chip.chan_shifted]
  split
  case isTrue hrun =>
    refine schedule_after_clk_inStep hclk (max ((s.chip k).chan x).cnt.toNat 1) fun hfits => ?_
    have hsub : sub ≤ s.clk.toNat + max ((s.chip k).chan x).cnt.toNat 1 := Nat.le_add_right_of_le hclk
    have hchip := chip_scheduled (x := x) (ch := (s.chip k).chan x)
      (v := s.clk.toNat + max ((s.chip k).chan x).cnt.toNat 1) hk
    refine ⟨OnlyChannel.scheduled k x _ _ s, Chip.chanShiftable_running hsub hfits ?_ ?_, ?_⟩
    · rw [hchip, Chip.chan_setChan]
    · rw [hchip, Chip.chanState_congr (Chip.ctl_setChan _ x x _), hrun]
    · rw [alarm_scheduled hslot]
      exact Alarm.shiftable_armed hsub hfits
  case isFalse hidle =>
    refine .ok ⟨OnlyChannel.refl k x s, Chip.chanShiftable_idle hnever hunarmed.u hidle, ?_⟩
    rw [hunarmed.slot]
    exact Alarm.shiftable_disarmed hnever

/-- The restore of a well-formed payload is in step (46_snapshot.md R266). -/
theorem restoreFrom_inStep (hs : s.Shiftable sub) (hk : k < s.cfg.nchip) (p : List Byte) :
    StateInStep sub r (restoreFrom k p s) (restoreFrom k p (s.shifted sub r)) := by
  have hlt : k < s.chips.length := hs.chip_lt hk
  have hbase := OnlyChip.restored k p s
  have hclk {t : State} (honly : OnlyChip k s t) : sub ≤ t.clk.toNat ∧ t.clk.toNat < neverNat := by
    rw [honly.clk]
    exact ⟨hs.clk_ge, hs.clk_lt⟩
  have hslotLt {t : State} (honly : OnlyChip k s t) (x : Channel) : slotOf k x < t.alarms.length := by
    rw [honly.alarms_length]
    exact hs.slotOf_lt hk x
  have hchipLt {t : State} (honly : OnlyChip k s t) : k < t.chips.length := by rwa [honly.chips_length]
  rw [restoreFrom_eq, restoreFrom_eq, restored_shifted p hs.clk_ge]
  refine (rearmChannel_inStep (Unarmed.of_restored p hlt .A) (hclk hbase).1 (hclk hbase).2 (hchipLt hbase)
    (hslotLt hbase .A)).bind fun s₁ _ h₁ => ?_
  obtain ⟨honlyA, hA⟩ := h₁
  have hone := hbase.trans honlyA.toOnlyChip
  have hB := (Unarmed.of_restored p hlt .B).onlyChannel honlyA (by decide)
  refine (rearmChannel_inStep hB (hclk hone).1 (hclk hone).2 (hchipLt hone) (hslotLt hone .B)).bind fun s₂ _ h₂ => ?_
  obtain ⟨honlyB, hB⟩ := h₂
  have htwo := hone.trans honlyB.toOnlyChip
  have hall (x : Channel) : Rearmed sub k x s₂ := by
    cases x with
    | A => exact hA.onlyChannel honlyB (by decide)
    | B => exact hB
  have hge := (hclk htwo).1
  have hnext : s₂.clk.toNat - sub + tickDelta p = s₂.clk.toNat + tickDelta p - sub := by omega
  rw [State.shifted_clk, toNat_rebaseStamp, hnext]
  have hsub : sub ≤ s₂.clk.toNat + tickDelta p := Nat.le_add_right_of_le hge
  refine (alarmSet_inStep (P := State.Shiftable sub) _ hsub fun hfits => ?_).bind fun s₃ _ h₃ => ?_
  · exact hs.armTod hk htwo (fun x => (hall x).slot) (fun x => (hall x).chan) hsub hfits
  · exact .of_ok (h₃.keepsSchedule (KeepsSchedule.updateLine k s₃.clk s₃)) (updateLine_shifted s₃ k s₃.clk)

end

end Sys2Proof.Machine
end

section
/-! The bodies of the operations, in step on the two time scales (40_counter_guard.md R108): those that take or answer a
cycle, and the snapshots. -/

namespace Sys2Proof.Machine

section
variable {sub k : Nat} {r : BitVec 32} {c : Cycle} {s t : State}

/-! ### Cycle operands -/

/-- A cycle operand lies in the future on both time scales or on neither (60_exceptions.md R284). -/
theorem cycleNotFuture_shifted (hs : s.Shiftable sub) (hc : sub ≤ c.toNat) :
    cycleNotFuture (shiftCycle sub c) (s.shifted sub r) = cycleNotFuture c s := by
  have hle := shiftCycle_le_rebaseStamp_iff hc hs.clk_ge hs.clk_lt
  have hlater : (shiftCycle sub c > rebaseStamp sub s.clk) = (c > s.clk) := by
    simpa only [BitVec.not_le] using congrArg Not (propext hle)
  unfold cycleNotFuture
  rw [State.shifted_clk]
  simp only [hlater]

/-- After its check a cycle operand is no `NEVER`, so that it is shifted as the counter is. -/
theorem checkCycle_inStep {γ δ : Type} {Q : γ → Prop} {carry : γ → δ} {y : Except FaultCode γ} {y' : Except FaultCode δ}
    (hs : s.Shiftable sub) (hc : sub ≤ c.toNat)
    (h : c.toNat < neverNat → shiftCycle sub c = rebaseStamp sub c → InStep Q carry y y') :
    InStep Q carry (cycleNotFuture c s >>= fun _ => y)
      (cycleNotFuture (shiftCycle sub c) (s.shifted sub r) >>= fun _ => y') := by
  rw [cycleNotFuture_shifted hs hc]
  refine InStep.check fun hcheck => ?_
  have hle : c.toNat ≤ s.clk.toNat := cycleNotFuture_eq_ok.mp hcheck
  have hlt := Nat.lt_of_le_of_lt hle hs.clk_lt
  exact h hlt (shiftCycle_eq_rebaseStamp hc (ne_never_of_lt hlt))

/-! ### The counter -/

theorem clkAdvance_inStep (n : BitVec 32) (hs : s.Shiftable sub) :
    BodyInStep sub r id (cycleStore (s.clk.toNat + n.toNat) >>= fun c => .ok ({ s with clk := c }, .nothing))
      (cycleStore ((s.shifted sub r).clk.toNat + n.toNat) >>= fun c =>
        .ok ({ s.shifted sub r with clk := c }, .nothing)) := by
  have hge := hs.clk_ge
  have hnext : (s.shifted sub r).clk.toNat + n.toNat = s.clk.toNat + n.toNat - sub := by
    rw [State.shifted_clk, toNat_rebaseStamp]
    omega
  rw [hnext]
  by_cases hlt : s.clk.toNat + n.toNat < neverNat
  case neg =>
    rw [cycleStore_eq_error.mpr ⟨Nat.le_of_not_lt hlt, rfl⟩]
    exact .overflow _
  case pos =>
    have hnat := toNat_ofNat_cycle hlt
    have hle := Nat.sub_le (s.clk.toNat + n.toNat) sub
    rw [cycleStore_ok hlt, cycleStore_ok (Nat.lt_of_le_of_lt hle hlt),
      ← rebaseStamp_ofNat (Nat.lt_trans hlt (by decide))]
    refine .of_ok ?_ rfl
    exact { hs with
      clk_ge := by
        rw [hnat]
        exact Nat.le_add_right_of_le hge
      clk_lt := by rwa [hnat] }

theorem clkRead_inStep (hs : s.Shiftable sub) :
    BodyInStep sub r (Reply.shift sub .clkRead) (.ok (s, .value s.clk))
      (.ok (s.shifted sub r, .value (s.shifted sub r).clk)) := by
  refine .of_ok hs ?_
  rw [State.shifted_clk, ← shiftCycle_eq_rebaseStamp hs.clk_ge (ne_never_of_lt hs.clk_lt)]
  rfl

/-! ### Alarms -/

theorem alarmSetOp_inStep (a : Nat) (hs : s.Shiftable sub) (hc : sub ≤ c.toNat) :
    BodyInStep sub r id
      (selectExternalSlot a s >>= fun _ => alarmSet a c.toNat s >>= fun s => .ok (s, .nothing))
      (selectExternalSlot a (s.shifted sub r) >>= fun _ =>
        alarmSet a (shiftCycle sub c).toNat (s.shifted sub r) >>= fun s => .ok (s, .nothing)) := by
  refine InStep.check (check := selectExternalSlot a s) fun hslot => bodyInStep_effect ?_
  obtain ⟨-, ha⟩ := selectExternalSlot_eq_ok.mp hslot
  by_cases hne : c = never
  · have hover : alarmSet a c.toNat s = .error .clockOverflow := by
      rw [hne]
      exact alarmSet_eq_error.mpr ⟨Nat.le_refl neverNat, rfl⟩
    rw [hover]
    exact .overflow _
  · rw [toNat_shiftCycle hc hne]
    exact alarmSet_inStep a hc fun hlt => hs.setExternal ha (Alarm.shiftable_armed hc hlt)

theorem alarmUnsetOp_inStep (a : Nat) (hs : s.Shiftable sub) :
    BodyInStep sub r id (selectExternalSlot a s >>= fun _ => .ok (alarmUnset a s, .nothing))
      (selectExternalSlot a (s.shifted sub r) >>= fun _ => .ok (alarmUnset a (s.shifted sub r), .nothing)) := by
  refine InStep.check (check := selectExternalSlot a s) fun hslot => ?_
  obtain ⟨-, ha⟩ := selectExternalSlot_eq_ok.mp hslot
  refine .of_ok (hs.setExternal ha (Alarm.shiftable_disarmed hs.sub_le_never)) ?_
  rw [alarmUnset_shifted]
  rfl

theorem alarmRead_inStep (a : Nat) (hs : s.Shiftable sub) :
    BodyInStep sub r (Reply.shift sub (.alarmRead a))
      (selectSlot a s >>= fun _ => .ok (s, .value (s.alarm a).target))
      (selectSlot a (s.shifted sub r) >>= fun _ =>
        .ok (s.shifted sub r, .value ((s.shifted sub r).alarm a).target)) := by
  refine InStep.check (check := selectSlot a s) fun _ => .of_ok hs ?_
  rw [State.alarm_shifted]
  rfl

theorem shiftCycle_lt_iff {u m : Cycle} (hu : sub ≤ u.toNat) (hm : sub ≤ m.toNat) :
    shiftCycle sub u < shiftCycle sub m ↔ u < m := by
  have hneverNat : never.toNat = neverNat := rfl
  by_cases hun : u = never
  · have hmax (v : Cycle) : ¬never < v := by
      rw [BitVec.lt_def, hneverNat]
      exact Nat.not_lt_of_le (Nat.le_of_lt_succ v.isLt)
    rw [hun, shiftCycle_never]
    exact iff_of_false (hmax _) (hmax _)
  by_cases hmn : m = never
  · have hlt := toNat_lt_never hun
    rw [hmn, shiftCycle_never, BitVec.lt_def, BitVec.lt_def, toNat_shiftCycle hu hun, hneverNat]
    omega
  · rw [BitVec.lt_def, BitVec.lt_def, toNat_shiftCycle hu hun, toNat_shiftCycle hm hmn]
    omega

/-- The earlier of a cycle and the target of an armed slot (41_alarm_scheduler.md R126). -/
def Alarm.earlier (m : Cycle) (al : Alarm) : Cycle := if al.armed && decide (al.target < m) then al.target else m

theorem Alarm.earlier_shifted {m : Cycle} {al : Alarm} (hm : sub ≤ m.toNat) (hal : al.Shiftable sub) :
    Alarm.earlier (shiftCycle sub m) (al.shifted sub) = shiftCycle sub (Alarm.earlier m al) := by
  have hlt : decide ((al.shifted sub).target < shiftCycle sub m) = decide (al.target < m) :=
    decide_eq_decide.mpr (shiftCycle_lt_iff hal.target_ge hm)
  unfold Alarm.earlier
  rw [hlt]
  exact (apply_ite (shiftCycle sub) _ _ _).symm

theorem Alarm.earlier_ge {m : Cycle} {al : Alarm} (hm : sub ≤ m.toNat) (hal : al.Shiftable sub) :
    sub ≤ (Alarm.earlier m al).toNat := by
  unfold Alarm.earlier
  split
  · exact hal.target_ge
  · exact hm

theorem foldl_earlier_shifted {l : List Alarm} (hl : ∀ al ∈ l, al.Shiftable sub) {m : Cycle} (hm : sub ≤ m.toNat) :
    (l.map (Alarm.shifted sub)).foldl Alarm.earlier (shiftCycle sub m) = shiftCycle sub (l.foldl Alarm.earlier m) := by
  induction l generalizing m with
  | nil => rfl
  | cons al l ih =>
    have hal : al.Shiftable sub := hl al List.mem_cons_self
    rw [List.map_cons, List.foldl_cons, List.foldl_cons, Alarm.earlier_shifted hm hal]
    exact ih (fun al' hmem => hl al' (List.mem_cons_of_mem al hmem)) (Alarm.earlier_ge hm hal)

theorem State.Shiftable.alarm_of_mem (hs : s.Shiftable sub) {al : Alarm} (hal : al ∈ s.alarms) : al.Shiftable sub := by
  obtain ⟨a, ha, rfl⟩ := List.mem_iff_getElem.mp hal
  have hslot : s.alarm a = s.alarms[a] := by rw [State.alarm, List.getD_eq_getElem _ _ ha]
  rw [← hslot]
  exact hs.alarm a

/-- The earliest armed target is shifted (41_alarm_scheduler.md R126). -/
theorem State.Shiftable.nextDue_shifted (hs : s.Shiftable sub) :
    (s.shifted sub r).nextDue = shiftCycle sub s.nextDue := by
  have hfold := foldl_earlier_shifted (m := never) (fun _ => hs.alarm_of_mem) hs.sub_le_never
  rw [shiftCycle_never] at hfold
  exact hfold

theorem alarmNext_inStep (hs : s.Shiftable sub) :
    BodyInStep sub r (Reply.shift sub .alarmNext) (.ok (s, .value s.nextDue))
      (.ok (s.shifted sub r, .value (s.shifted sub r).nextDue)) := by
  refine .of_ok hs ?_
  rw [hs.nextDue_shifted]
  rfl

theorem dispatchOp_inStep (hs : s.Shiftable sub) :
    BodyInStep sub r id (dispatch s >>= fun p => .ok (p.1, .value (countWord p.2)))
      (dispatch (s.shifted sub r) >>= fun p => .ok (p.1, .value (countWord p.2))) :=
  (dispatch_inStep hs).bind fun _ _ hp => .of_ok hp rfl

/-! ### Lines -/

theorem State.Shiftable.aggSet (hs : s.Shiftable sub) (n : Nat) (b : Bool) (e : Cycle) :
    (aggSet n b e s).Shiftable sub :=
  hs.congr (aggSet_cfg ..) (aggSet_clk ..) (aggSet_alarms ..) (aggSet_chips ..)

theorem setSourceOp_inStep (n : Nat) (b : Bool) (hs : s.Shiftable sub) (hc : sub ≤ c.toNat) :
    BodyInStep sub r id (setSourceOp n b c s) (setSourceOp n b (shiftCycle sub c) (s.shifted sub r)) := by
  refine InStep.check (check := selectExternalSource n s) fun _ => afterDispatch_inStep hs fun t _ ht => ?_
  refine checkCycle_inStep ht hc fun _ hshift => .of_ok (ht.aggSet n b c) ?_
  rw [hshift, aggSet_shifted]
  rfl

theorem irqQuery_inStep (l : Line) (hs : s.Shiftable sub) (hc : sub ≤ c.toNat) :
    BodyInStep sub r id
      (afterDispatch s fun s => cycleNotFuture c s >>= fun _ => .ok (s, .bit (s.level l)))
      (afterDispatch (s.shifted sub r) fun s => cycleNotFuture (shiftCycle sub c) s >>= fun _ =>
        .ok (s, .bit (s.level l))) :=
  afterDispatch_inStep hs fun _ _ ht => checkCycle_inStep ht hc fun _ _ => .of_ok ht rfl

theorem irqCpumask_inStep (m : Bool) (hs : s.Shiftable sub) :
    BodyInStep sub r id (afterDispatch s fun s => .ok ({ s with cpuMasked := m }, .nothing))
      (afterDispatch (s.shifted sub r) fun s => .ok ({ s with cpuMasked := m }, .nothing)) :=
  afterDispatch_inStep hs fun _ _ ht => .of_ok (ht.congr rfl rfl rfl rfl) rfl

/-- The stamp that is answered is shifted, or 0 where the line last rose before the new origin (40_counter_guard.md
R106). -/
theorem irqStamp_inStep (l : Line) (hs : s.Shiftable sub) :
    BodyInStep sub r (Reply.shift sub (.irqStamp l)) (afterDispatch s fun s => .ok (s, .value (s.lineClk l)))
      (afterDispatch (s.shifted sub r) fun s => .ok (s, .value (s.lineClk l))) := by
  refine afterDispatch_inStep hs fun t _ ht => .of_ok ht ?_
  rw [State.lineClk_shifted, rebaseStamp_eq_ite]
  rfl

/-! ### Chips -/

theorem chipUpdate_inStep (hs : s.Shiftable sub) (hc : sub ≤ c.toNat) :
    BodyInStep sub r id
      (onChip k s fun s => cycleNotFuture c s >>= fun _ => updateTo k c s >>= fun s => .ok (s, .nothing))
      (onChip k (s.shifted sub r) fun s => cycleNotFuture (shiftCycle sub c) s >>= fun _ =>
        updateTo k (shiftCycle sub c) s >>= fun s => .ok (s, .nothing)) := by
  refine onChip_inStep hs fun t _ ht hk => checkCycle_inStep ht hc fun hlt hshift => bodyInStep_effect ?_
  rw [hshift]
  exact updateTo_inStep ht hk hc hlt

theorem chipResetOp_inStep (hs : s.Shiftable sub) :
    BodyInStep sub r id (onChip k s fun s => chipReset k s.clk s >>= fun s => .ok (s, .nothing))
      (onChip k (s.shifted sub r) fun s => chipReset k s.clk s >>= fun s => .ok (s, .nothing)) :=
  onChip_inStep hs fun _ _ ht hk => bodyInStep_effect (chipReset_inStep ht hk)

/-- The byte that `CHIP_PEEK` answers, whatever operation reads it. -/
theorem readReg_inStep (g : Reg) (hs : s.Shiftable sub) :
    BodyInStep sub r id (readChip k (fun s => (s.chip k).peek g s.clk) s)
      (readChip k (fun s => (s.chip k).peek g s.clk) (s.shifted sub r)) :=
  readChip_inStep hs fun _ ht => ht.peek_shifted k g

theorem portOut_inStep (p : PortId) (hs : s.Shiftable sub) :
    BodyInStep sub r id (readChip k (fun s => s.portOut k p) s)
      (readChip k (fun s => s.portOut k p) (s.shifted sub r)) :=
  readChip_inStep hs fun t _ => t.portOut_shifted k p

theorem readTod_inStep (i : TodField) (hs : s.Shiftable sub) :
    BodyInStep sub r id (readTod k i s) (readTod k i (s.shifted sub r)) := by
  refine accessChip_inStep hs fun t _ ht _ => .of_ok (ht.keepsSchedule (KeepsSchedule.todRead k i t)) ?_
  rw [todRead_shifted, todReadByte_shifted]
  rfl

theorem readIcr_inStep (hs : s.Shiftable sub) :
    BodyInStep sub r id (accessChip k s fun s => .ok (clearFlags k s, .byte (s.chip k).icrByte))
      (accessChip k (s.shifted sub r) fun s => .ok (clearFlags k s, .byte (s.chip k).icrByte)) := by
  refine accessChip_inStep hs fun t _ ht _ => .of_ok (ht.keepsSchedule (KeepsSchedule.clearFlags k t)) ?_
  rw [clearFlags_shifted ht, State.chip_shifted]
  rfl

theorem portIn_inStep (p : PortId) (v : Byte) (hs : s.Shiftable sub) :
    BodyInStep sub r id (onChip k s fun s => .ok (setPortIn k p v s, .nothing))
      (onChip k (s.shifted sub r) fun s => .ok (setPortIn k p v s, .nothing)) := by
  refine onChip_inStep hs fun t _ ht _ => .of_ok (ht.keepsSchedule (KeepsSchedule.setPortIn k p v t)) ?_
  rw [setPortIn_shifted]
  rfl

theorem extPulse_inStep (hs : s.Shiftable sub) :
    BodyInStep sub r id (writeChip k (fun s => pulseChannel k .B (pulseChannel k .A s)) s)
      (writeChip k (fun s => pulseChannel k .B (pulseChannel k .A s)) (s.shifted sub r)) := by
  refine writeChip_inStep hs (fun t => (KeepsSchedule.pulseChannel k .A t).trans (KeepsSchedule.pulseChannel k .B _))
    fun t ht => ?_
  rw [pulseChannel_shifted ht, pulseChannel_shifted (ht.keepsSchedule (KeepsSchedule.pulseChannel k .A t))]

/-! ### Snapshots -/

/-- A read that the rebase drops is too old to be saved (46_snapshot.md R263). -/
theorem rdiByte_shifted {cfg : Config} (hold : sub + cfg.snapRdiMax ≤ c.toNat) (l : Option Cycle) :
    rdiByte cfg (rebaseLastRead sub l) (rebaseStamp sub c) = rdiByte cfg l c := by
  cases l with
  | none => rfl
  | some e =>
    rw [rebaseLastRead]
    split
    case isTrue he =>
      have hd : c.toNat - sub - (e.toNat - sub) = c.toNat - e.toNat := by omega
      change rdiByte cfg (some (rebaseStamp sub e)) (rebaseStamp sub c) = _
      unfold rdiByte
      dsimp only
      rw [toNat_rebaseStamp, toNat_rebaseStamp, hd]
    case isFalse he =>
      have hd : c.toNat - e.toNat > cfg.snapRdiMax := by omega
      exact (if_pos hd).symm

/-- The cycles to the next tick do not see the shift (46_snapshot.md R261). -/
theorem State.Shiftable.tickDistance_shifted (hs : s.Shiftable sub) (hk : k < s.cfg.nchip) :
    ((s.shifted sub r).alarm (todSlot k)).target - (s.shifted sub r).clk = (s.alarm (todSlot k)).target - s.clk := by
  have htick := hs.alarm (todSlot k)
  rw [State.alarm_shifted, Alarm.target_shifted_of_armed htick (hs.tod_armed k hk), State.shifted_clk,
    rebaseStamp_of_le htick.target_ge, rebaseStamp_of_le hs.clk_ge]
  exact sub_sub_sub_cancel_right ..

theorem snapPayload_shifted (hs : s.Shiftable sub) (hk : k < s.cfg.nchip)
    (hold : sub + s.cfg.snapRdiMax ≤ s.clk.toNat) :
    snapPayload k (s.shifted sub r) = snapPayload k s := by
  unfold snapPayload
  dsimp only
  rw [hs.tickDistance_shifted hk, State.chip_shifted, State.shifted_clk, State.shifted_cfg,
    Chip.live_shifted (hs.chan k .A) hs.clk_ge, Chip.live_shifted (hs.chan k .B) hs.clk_ge]
  change _ ++ [_, _, _, rdiByte s.cfg (rebaseLastRead sub (s.chip k).lastRead) (rebaseStamp sub s.clk)] ++ _ = _
  rw [rdiByte_shifted hold]
  rfl

theorem snapSave_inStep (hs : s.Shiftable sub) (hold : sub + s.cfg.snapRdiMax ≤ s.clk.toNat) :
    BodyInStep sub r id
      (snapshotPresent s >>= fun _ => accessChip k s fun s => .ok (s, ⟨0, 39, snapPayload k s⟩))
      (snapshotPresent (s.shifted sub r) >>= fun _ =>
        accessChip k (s.shifted sub r) fun s => .ok (s, ⟨0, 39, snapPayload k s⟩)) := by
  refine InStep.check (check := snapshotPresent s) fun _ => accessChip_inStep hs fun t hst ht hk => .of_ok ht ?_
  rw [snapPayload_shifted ht hk (by rwa [hst.cfg, hst.clk])]
  rfl

/-- The payload has the wrong length or version (46_snapshot.md R267). -/
abbrev WrongForm (cfg : Config) (p : List Byte) : Prop :=
  p.length ≠ 39 ∨ byteAt p 0 ≠ cfg.snapMajor ∨ byteAt p 1 ≠ cfg.snapMinor

theorem malformed_iff (p : List Byte) (s : State) :
    malformed p s = true ↔ WrongForm s.cfg p ∨ neverNat ≤ s.clk.toNat + tickDelta p := by
  simp only [malformed, Bool.or_eq_true, decide_eq_true_eq, or_assoc]

/-- A payload whose tick fits is malformed on both time scales or on neither (46_snapshot.md R267). -/
theorem malformed_shifted {p : List Byte} (hform : malformed p s = true → WrongForm s.cfg p) :
    malformed p (s.shifted sub r) = malformed p s := by
  refine Bool.eq_iff_iff.mpr ?_
  rw [malformed_iff]
  refine ⟨?_, fun h => .inl (hform h)⟩
  rintro (hwrong | htick)
  · exact (malformed_iff p s).mpr (.inl hwrong)
  · refine (malformed_iff p s).mpr (.inr ?_)
    rw [State.shifted_clk, toNat_rebaseStamp] at htick
    omega

end

end Sys2Proof.Machine
end

section
/-! A rebase is transparent (40_counter_guard.md R108): every operation ends in step on the two time scales, so that a
run does. -/

namespace Sys2Proof.Machine

section
variable {sub k : Nat} {r : BitVec 32} {s t : State}

/-! ### One operation -/

/-- A restore whose refused payload has the wrong form ends in step (46_snapshot.md R266, R267). -/
theorem execSnapRestore_inStep (hs : s.Shiftable sub) (h : execSnapRestore k s = .next t) (hfits : t.status ≠ 3)
    (hform : t.status = snapshotMalformed → WrongForm s.cfg s.payloadIn) :
    EndsInStep sub (.snapRestore k) t (execSnapRestore k (s.shifted sub r)) := by
  have hid : Reply.shift sub (.snapRestore k) = id := funext fun q => ite_self q
  refine perform_inStep hs h hfits fun hfault => ?_
  rw [hid]
  refine InStep.check (check := snapshotPresent s) fun hpresent => InStep.check (check := selectChip k s) fun hk =>
    (dispatch_inStep hs).bind fun p hdispatch hp => ?_
  have hkeeps := (DispatchKeeps.dispatch (n := p.2) hdispatch).1
  have hkp : k < p.1.cfg.nchip := by
    rw [hkeeps.cfg]
    exact selectChip_eq_ok.mp hk
  have hwrong : malformed p.1.payloadIn p.1 = true → WrongForm p.1.cfg p.1.payloadIn := fun hbad => by
    have hend := h
    rw [execSnapRestore, perform_ok (s' := p.1) (r := .failed snapshotMalformed) hfault (by
      rw [hpresent, ok_bind, onChip, hk, ok_bind, afterDispatch, hdispatch, ok_bind]
      exact if_pos hbad)] at hend
    cases hend
    rw [hkeeps.cfg, hkeeps.payloadIn]
    exact hform rfl
  dsimp only
  rw [State.shifted_payloadIn, malformed_shifted hwrong]
  split
  · exact .of_ok hp rfl
  · exact bodyInStep_effect (restoreFrom_inStep hp hkp _)

/-- Every operation but `GUARD_TICK` and `DOMAIN_RESET` ends in step (40_counter_guard.md R108). -/
theorem exec_inStep {i : Instr} (hs : s.Shiftable sub) (hshift : i.CanShift sub)
    (hsave : ∀ k, i = .snapSave k → sub + s.cfg.snapRdiMax ≤ s.clk.toNat) (h : exec i s = .next t)
    (hfits : t.status ≠ 3) (hform : t.status = snapshotMalformed → WrongForm s.cfg s.payloadIn) :
    EndsInStep sub i t (exec (i.shift sub) (s.shifted sub r)) := by
  cases i <;> dsimp only [exec, Instr.shift] at h ⊢
  case guardTick => exact hshift.elim
  case domainReset => exact hshift.elim
  case clkRead => exact perform_inStep hs h hfits fun _ => clkRead_inStep hs
  case alarmNext => exact perform_inStep hs h hfits fun _ => alarmNext_inStep hs
  case alarmRead a => exact perform_inStep hs h hfits fun _ => alarmRead_inStep a hs
  case irqStamp l => exact perform_inStep hs h hfits fun _ => irqStamp_inStep l hs
  case snapRestore k => exact execSnapRestore_inStep hs h hfits hform
  case snapSave k => exact perform_inStep_plain hs h hfits (snapSave_inStep hs (hsave k rfl))
  case clkAdvance n => exact perform_inStep_plain hs h hfits (clkAdvance_inStep n hs)
  case alarmSet a c => exact perform_inStep_plain hs h hfits (alarmSetOp_inStep a hs hshift)
  case alarmUnset a => exact perform_inStep_plain hs h hfits (alarmUnsetOp_inStep a hs)
  case dispatch => exact perform_inStep_plain hs h hfits (dispatchOp_inStep hs)
  case irqAssert n c | irqDeassert n c =>
    exact perform_inStep_plain hs h hfits (setSourceOp_inStep n _ hs hshift)
  case irqQuery l c => exact perform_inStep_plain hs h hfits (irqQuery_inStep l hs hshift)
  case irqCpumask m => exact perform_inStep_plain hs h hfits (irqCpumask_inStep m hs)
  case chipReset k => exact perform_inStep_plain hs h hfits (chipResetOp_inStep hs)
  case chipUpdate k c => exact perform_inStep_plain hs h hfits (chipUpdate_inStep hs hshift)
  case chipReadPra k => exact perform_inStep_plain hs h hfits (readReg_inStep .pra hs)
  case chipReadPrb k => exact perform_inStep_plain hs h hfits (readReg_inStep .prb hs)
  case chipReadDdra k => exact perform_inStep_plain hs h hfits (readReg_inStep .ddra hs)
  case chipReadDdrb k => exact perform_inStep_plain hs h hfits (readReg_inStep .ddrb hs)
  case chipReadTalo k => exact perform_inStep_plain hs h hfits (readReg_inStep .talo hs)
  case chipReadTahi k => exact perform_inStep_plain hs h hfits (readReg_inStep .tahi hs)
  case chipReadTblo k => exact perform_inStep_plain hs h hfits (readReg_inStep .tblo hs)
  case chipReadTbhi k => exact perform_inStep_plain hs h hfits (readReg_inStep .tbhi hs)
  case chipReadSdr k => exact perform_inStep_plain hs h hfits (readReg_inStep .sdr hs)
  case chipReadCra k => exact perform_inStep_plain hs h hfits (readReg_inStep .cra hs)
  case chipReadCrb k => exact perform_inStep_plain hs h hfits (readReg_inStep .crb hs)
  case chipPeek k g => exact perform_inStep_plain hs h hfits (readReg_inStep g hs)
  case chipReadTod10 k | chipReadTodsec k | chipReadTodmin k | chipReadTodhr k =>
    exact perform_inStep_plain hs h hfits (readTod_inStep _ hs)
  case chipReadIcr k => exact perform_inStep_plain hs h hfits (readIcr_inStep hs)
  case chipWritePra k v | chipWritePrb k v | chipWriteDdra k v | chipWriteDdrb k v =>
    exact perform_inStep_plain hs h hfits (writeChip_inStep hs
      (fun _ => KeepsSchedule.setRegs rfl rfl rfl rfl) fun t _ => by
        rw [← State.setChip_shifted, State.chip_shifted]
        rfl)
  case chipWriteTalo k v | chipWriteTahi k v | chipWriteTblo k v | chipWriteTbhi k v =>
    exact perform_inStep_plain hs h hfits (writeChipE_inStep hs fun _ ht hk =>
      writeLatchByte_inStep ht hk _ _ v)
  case chipWriteTod10 k v | chipWriteTodsec k v | chipWriteTodmin k v | chipWriteTodhr k v =>
    exact perform_inStep_plain hs h hfits (writeChip_inStep hs
      (KeepsSchedule.todWrite k _ v) fun _ _ => todWrite_shifted _ v)
  case chipWriteSdr k v =>
    exact perform_inStep_plain hs h hfits (writeChip_inStep hs
      (KeepsSchedule.writeSdr k v) fun _ _ => writeSdr_shifted v)
  case chipWriteIcr k v =>
    exact perform_inStep_plain hs h hfits (writeChip_inStep hs
      (KeepsSchedule.writeMask k v) fun _ _ => writeMask_shifted v)
  case chipWriteCra k v | chipWriteCrb k v =>
    exact perform_inStep_plain hs h hfits (writeChipE_inStep hs fun _ ht hk =>
      writeControl_inStep ht hk _ v)
  case portIn k p v => exact perform_inStep_plain hs h hfits (portIn_inStep p v hs)
  case portOut k p => exact perform_inStep_plain hs h hfits (portOut_inStep p hs)
  case extPulse k => exact perform_inStep_plain hs h hfits (extPulse_inStep hs)

end

end Sys2Proof.Machine
end

section
/-! The rebase as a shift of the time scale, and runs of operations on both (40_counter_guard.md R106, R108). -/

namespace Sys2Proof.Machine

section
variable {sub k : Nat} {r : BitVec 32} {s s' t u : State}

/-! ### What the rebase leaves visible -/

theorem Chip.rebase_absent (sub : Nat) : Chip.absent.rebase sub = Chip.absent := Chip.shifted_absent sub

theorem chip_of_rebaseAll (h : rebaseAll sub s = .ok s') (k : Nat) : s'.chip k = (s.chip k).rebase sub := by
  obtain ⟨-, rfl⟩ := rebaseAll_eq_ok.mp h
  unfold State.chip
  conv_lhs => rw [← Chip.rebase_absent sub]
  exact List.getD_map ..

/-- The live counter does not see the rebase, of whatever state it is (40_counter_guard.md R107). -/
theorem Chip.live_rebase {c : Chip} {x : Channel} {e : Cycle} (he : sub ≤ e.toNat)
    (hrun : c.chanState x = .running → e < (c.chan x).u) :
    (c.rebase sub).live x (rebaseStamp sub e) = c.live x e := by
  have hstate : (c.rebase sub).chanState x = c.chanState x := by cases x <;> rfl
  have hchan : (c.rebase sub).chan x = rebaseChan sub (decide (c.chanState x = .running)) (c.chan x) := by
    cases x <;> rfl
  by_cases hx : c.chanState x = .running
  · have hlater : e.toNat < (c.chan x).u.toNat := hrun hx
    have hchan' : (c.rebase sub).chan x = { c.chan x with u := rebaseStamp sub (c.chan x).u } := by
      rw [hchan, decide_eq_true hx]
      rfl
    have hleft : (c.chan x).u.toNat - sub - (e.toNat - sub) = (c.chan x).u.toNat - e.toNat := by omega
    rw [Chip.live_of_running (by rwa [hstate]), Chip.live_of_running hx, hchan', toNat_rebaseStamp, toNat_rebaseStamp,
      hleft]
  · have hchan' : (c.rebase sub).chan x = c.chan x := by
      rw [hchan, decide_eq_false hx]
      rfl
    rw [Chip.live_of_idle (by rwa [hstate]), Chip.live_of_idle hx, hchan']

/-- A rebase leaves all of a chip but its cycle values alone (40_counter_guard.md R107). -/
theorem Chip.toggle_rebase (c : Chip) (x : Channel) : ((c.rebase sub).chan x).toggle = (c.chan x).toggle := by
  cases x <;> exact (apply_ite Chan.toggle _ _ _).trans (ite_self _)

theorem Chip.mux_rebase (c : Chip) (v : Byte) : (c.rebase sub).mux v = c.mux v := by
  have hA : (c.rebase sub).chanA.toggle = c.chanA.toggle := c.toggle_rebase .A
  have hB : (c.rebase sub).chanB.toggle = c.chanB.toggle := c.toggle_rebase .B
  unfold Chip.mux
  rw [hA, hB]
  rfl

theorem Chip.portOut_rebase (c : Chip) (p : PortId) : (c.rebase sub).portOut p = c.portOut p := by
  cases p with
  | a => rfl
  | b => exact c.mux_rebase _

theorem Chip.peek_rebase {c : Chip} {e : Cycle} (he : sub ≤ e.toNat)
    (hrun : ∀ x, c.chanState x = .running → e < (c.chan x).u) (g : Reg) :
    (c.rebase sub).peek g (rebaseStamp sub e) = c.peek g e := by
  have hlive (x : Channel) : (c.rebase sub).live x (rebaseStamp sub e) = c.live x e := Chip.live_rebase he (hrun x)
  cases g with
  | talo => exact congrArg lo8 (hlive .A)
  | tahi => exact congrArg hi8 (hlive .A)
  | tblo => exact congrArg lo8 (hlive .B)
  | tbhi => exact congrArg hi8 (hlive .B)
  | prb => exact c.mux_rebase _
  | _ => rfl

/-! ### The rebase as a shift -/

theorem rebaseChan_eq_shifted {running : Bool} {ch : Chan} (hu : sub ≤ ch.u.toNat)
    (hrun : running = true ↔ ch.u ≠ never) :
    rebaseChan sub running ch = ch.shifted sub := by
  cases running with
  | true => exact congrArg (fun u => { ch with u := u }) (shiftCycle_eq_rebaseStamp hu (hrun.mp rfl)).symm
  | false =>
    have hnever : ch.u = never := by simpa using hrun
    unfold Chan.shifted
    rw [hnever, shiftCycle_never, ← hnever]
    rfl

theorem Chip.rebase_eq_shifted {c : Chip} (h : ∀ x, c.ChanShiftable sub x) : c.rebase sub = c.shifted sub := by
  have hA := rebaseChan_eq_shifted (h .A).u_ge (decide_eq_true_iff.trans (h .A).running_iff)
  have hB := rebaseChan_eq_shifted (h .B).u_ge (decide_eq_true_iff.trans (h .B).running_iff)
  change { c with
    rc := _, chanA := rebaseChan sub _ (c.chan .A), chanB := rebaseChan sub _ (c.chan .B), lastRead := _ } = _
  rw [hA, hB]
  rfl

theorem Alarm.rebase_eq_shifted {al : Alarm} (h : al.Shiftable sub) : al.rebase sub = al.shifted sub := by
  unfold Alarm.rebase
  split
  case isTrue harmed =>
    exact congrArg (Alarm.mk al.armed) (shiftCycle_eq_rebaseStamp h.target_ge (h.armed_iff.mp harmed)).symm
  case isFalse hdisarmed =>
    have hnever : al.target = never := not_not.mp (mt h.armed_iff.mpr hdisarmed)
    unfold Alarm.shifted
    rw [hnever, shiftCycle_never, ← hnever]

/-- The rebase of a state that can be shifted is its shift (40_counter_guard.md R106). -/
theorem State.Shiftable.rebaseAll (hs : s.Shiftable sub) : rebaseAll sub s = .ok (s.shifted sub s.resp) := by
  have halarms : s.alarms.map (Alarm.rebase sub) = s.alarms.map (Alarm.shifted sub) :=
    List.map_congr_left fun al hal => Alarm.rebase_eq_shifted (hs.alarm_of_mem hal)
  have hchips : s.chips.map (Chip.rebase sub) = s.chips.map (Chip.shifted sub) := by
    rw [s.chips_eq_map_chip, List.map_map, List.map_map]
    exact List.map_congr_left fun k _ => Chip.rebase_eq_shifted (hs.chan k)
  refine rebaseAll_eq_ok.mpr ⟨fun al hal _ => (hs.alarm_of_mem hal).target_ge, ?_⟩
  rw [halarms, hchips]
  rfl

theorem Alarm.shiftable_absent (hsub : sub ≤ neverNat) : Alarm.absent.Shiftable sub := Alarm.shiftable_disarmed hsub

theorem Chip.chanShiftable_absent (hsub : sub ≤ neverNat) (x : Channel) : Chip.absent.ChanShiftable sub x := by
  refine Chip.chanShiftable_idle hsub (by cases x <;> rfl) ?_
  cases x <;> decide

theorem Alarm.shiftable_of_inv (hinv : s.Inv) (hsub : sub ≤ neverNat) {al : Alarm} (hal : al ∈ s.alarms)
    (harmed : al.armed = true → sub ≤ al.target.toNat) : al.Shiftable sub := by
  cases hcase : al.armed with
  | true =>
    have hne := ne_never_of_lt (hinv.armed_lt al hal hcase)
    exact ⟨harmed hcase, by simp [hcase, hne]⟩
  | false =>
    have hnever := hinv.disarmed_never al hal hcase
    exact ⟨by rw [hnever]; exact hsub, by simp [hcase, hnever]⟩

theorem State.alarm_mem_or_absent (s : State) (a : Nat) : s.alarm a ∈ s.alarms ∨ s.alarm a = Alarm.absent := by
  by_cases ha : a < s.alarms.length
  · refine .inl ?_
    rw [State.alarm, List.getD_eq_getElem _ _ ha]
    exact List.getElem_mem ha
  · exact .inr (List.getD_eq_default _ _ (Nat.le_of_not_lt ha))

/-- In the invariant a state that can be rebased can be shifted: the slot of a running channel is armed at its next
underflow, and no armed slot is before the new origin (40_counter_guard.md R106; 43_chip_timers.md R162). -/
theorem State.Inv.shiftable (hinv : s.Inv) (hsub : sub ≤ s.clk.toNat)
    (h : rebaseAll sub s = .ok s') : s.Shiftable sub := by
  obtain ⟨harmed, -⟩ := rebaseAll_eq_ok.mp h
  have hnever : sub ≤ neverNat := Nat.le_trans hsub (Nat.le_of_lt hinv.clk_lt)
  have halarm (a : Nat) : (s.alarm a).Shiftable sub := by
    rcases s.alarm_mem_or_absent a with hmem | habsent
    · exact Alarm.shiftable_of_inv hinv hnever hmem (harmed _ hmem)
    · rw [habsent]
      exact Alarm.shiftable_absent hnever
  refine ⟨hsub, hinv.clk_lt, hinv.chips_length, halarm, fun k x => ?_, fun k hk => (hinv.chip k hk).tod_armed⟩
  by_cases hk : k < s.cfg.nchip
  case neg =>
    have habsent : s.chip k = Chip.absent :=
      List.getD_eq_default _ _ (by rw [hinv.chips_length]; exact Nat.le_of_not_lt hk)
    rw [habsent]
    exact Chip.chanShiftable_absent hnever x
  case pos =>
    have hchan := (hinv.chip k hk).chan x
    by_cases hrun : (s.chip k).chanState x = .running
    · have hslot := halarm (slotOf k x)
      rw [hchan.running_armed hrun] at hslot
      exact ⟨hslot.target_ge, iff_of_true hrun (hslot.armed_iff.mp rfl)⟩
    · exact Chip.chanShiftable_idle hnever (hchan.idle_never hrun) hrun

/-! ### Runs -/

/-- No operation that can be shifted takes the counter back (40_counter_guard.md R102). -/
theorem exec_clk_le {i : Instr} (hshift : i.CanShift sub) (h : exec i s = .next t) : s.clk.toNat ≤ t.clk.toNat := by
  by_cases hadvance : ∃ n, i = .clkAdvance n
  case pos =>
    obtain ⟨n, rfl⟩ := hadvance
    rcases execClkAdvance_clk h with hadd | hsame
    · omega
    · rw [hsame]
  case neg =>
    have hguard : i ≠ .guardTick := fun heq => by rw [heq] at hshift; exact hshift
    have hreset : i ≠ .domainReset := fun heq => by rw [heq] at hshift; exact hshift
    rw [exec_clk (fun n heq => hadvance ⟨n, heq⟩) hguard hreset h]

theorem reply_shifted (i : Instr) (t : State) :
    (t.shifted sub (t.reply.shift sub i).resp).reply = t.reply.shift sub i := by
  have hstatus := Reply.shift_status (sub := sub) i t.reply
  have hpayload := Reply.shift_payload (sub := sub) i t.reply
  generalize t.reply.shift sub i = q at hstatus hpayload ⊢
  obtain ⟨status, resp, payload⟩ := q
  dsimp only at hstatus hpayload
  rw [hstatus, hpayload]
  rfl

/-- A run on the later time scale answers the shifted replies and ends in the shifted state (40_counter_guard.md
R108). -/
theorem runs_shifted {os : List Operation} {rs : List Reply} (hs : s.Shiftable sub)
    (hshift : ∀ o ∈ os, o.instr.CanShift sub)
    (hsave : ∀ o ∈ os, ∀ k, o.instr = .snapSave k → sub + s.cfg.snapRdiMax ≤ s.clk.toNat) (hruns : Runs os s rs u)
    (hfits : ∀ x ∈ os.zip rs, x.1.Fits s.cfg x.2) :
    u.Shiftable sub ∧ ∃ r', Runs (os.map (Operation.shift sub)) (s.shifted sub r)
      ((os.zip rs).map fun x => x.2.shift sub x.1.instr) (u.shifted sub r') := by
  induction os generalizing s r rs with
  | nil =>
    obtain ⟨rfl, rfl⟩ := hruns
    exact ⟨hs, r, rfl, rfl⟩
  | cons o os ih =>
    obtain ⟨t, rs, hexec, rfl, hrest⟩ := hruns
    rw [List.zip_cons_cons] at hfits
    obtain ⟨hstatus, hform⟩ := hfits (o, t.reply) List.mem_cons_self
    have hclk := exec_clk_le (hshift o List.mem_cons_self) hexec
    have hcfg : t.cfg = s.cfg := (exec_keepsWiring hexec).cfg
    have hstep : EndsInStep sub o.instr t
        (exec (o.instr.shift sub) (State.shifted sub r { s with payloadIn := o.payload })) :=
      exec_inStep (hs.congr rfl rfl rfl rfl) (hshift o List.mem_cons_self) (hsave o List.mem_cons_self) hexec hstatus
        hform
    have hsave' : ∀ o ∈ os, ∀ k, o.instr = .snapSave k → sub + t.cfg.snapRdiMax ≤ t.clk.toNat := fun o ho k hk => by
      rw [hcfg]
      exact Nat.le_trans (hsave o (List.mem_cons_of_mem _ ho) k hk) hclk
    obtain ⟨hu, r', hruns'⟩ := ih (r := (t.reply.shift sub o.instr).resp) hstep.shiftable
      (fun o ho => hshift o (List.mem_cons_of_mem _ ho)) hsave' hrest
      (fun x hx => by rw [hcfg]; exact hfits x (List.mem_cons_of_mem _ hx))
    refine ⟨hu, r', _, _, hstep.outcome, ?_, hruns'⟩
    rw [List.zip_cons_cons, List.map_cons, reply_shifted]

end

/-! ### The three parts of the statement -/

/-- Right after a rebase no output and no peeked byte has changed (40_counter_guard.md R108). -/
theorem visible_rebaseAll {s s' : State} {sub : Nat} (h : rebaseAll sub s = .ok s') (hsub : sub ≤ s.clk.toNat)
    (hrun : ∀ k < s.cfg.nchip, ∀ x, (s.chip k).chanState x = .running → s.clk < ((s.chip k).chan x).u) :
    s'.clk.toNat + sub = s.clk.toNat ∧
    (∀ k < s.cfg.nchip, ∀ g, (s'.chip k).peek g s'.clk = (s.chip k).peek g s.clk) ∧
    (∀ k < s.cfg.nchip, ∀ p, s'.portOut k p = s.portOut k p) ∧ (∀ l, s'.level l = s.level l) := by
  have hchip := chip_of_rebaseAll h
  obtain ⟨-, rfl⟩ := rebaseAll_eq_ok.mp h
  refine ⟨?_, fun k hk g => ?_, fun k _ p => ?_, fun l => rfl⟩
  · have hnat : (rebaseStamp sub s.clk).toNat = s.clk.toNat - sub := toNat_rebaseStamp ..
    change (rebaseStamp sub s.clk).toNat + sub = _
    omega
  · rw [hchip k]
    exact Chip.peek_rebase hsub (hrun k hk) g
  · rw [State.portOut, hchip k]
    exact Chip.portOut_rebase _ p

/-- `DOMAIN_RESET` reads nothing that a rebase writes (70_reset_and_hazards.md R310). -/
theorem domainReset_of_rebaseAll {s s' : State} {sub : Nat} (h : rebaseAll sub s = .ok s') :
    domainReset s' = domainReset s := by
  obtain ⟨-, rfl⟩ := rebaseAll_eq_ok.mp h
  rfl

/-- Settles O19: a rebase is a shift of the time scale, and every operation ends in step on the two time scales. -/
theorem rebaseIsTransparent : Obligations.RebaseIsTransparent := by
  unfold Obligations.RebaseIsTransparent
  refine ⟨fun s s' sub h hsub hrun => visible_rebaseAll h hsub hrun, ?_, ?_⟩
  · intro s s' u sub os rs hinv hsub _ h hshift hsave hruns hfits
    have hs : s.Shiftable sub := hinv.shiftable hsub h
    obtain rfl : s.shifted sub s.resp = s' := Except.ok.inj (hs.rebaseAll.symm.trans h)
    obtain ⟨hu, r', hruns'⟩ := runs_shifted (r := s.resp) hs hshift hsave hruns hfits
    exact ⟨u.shifted sub r', hruns', hu.rebaseAll⟩
  · intro s s' sub hinv h
    obtain ⟨u, hreset, -⟩ := domainReset_total hinv.cfg_wf.todPeriod_lt
    rw [exec_domainReset hreset, exec_domainReset ((domainReset_of_rebaseAll h).trans hreset)]

end Sys2Proof.Machine
end

section
/-! A dispatch of a ready state ends, and the opening of an access leads to a ready state with no slot due
(41_alarm_scheduler.md R128, R134; 44_chip_icr_sdr_ports.md R231, R232). -/

namespace Sys2Proof.Machine

section
variable {k : Nat} {s t : State}

/-- With nothing due the reconciliation at `clk` is the store of the live values, and keeps the state ready
(43_chip_timers.md R162, R166). -/
theorem ready_storeLive (hready : s.Ready) (hnone : s.NoneDue) (hk : k < s.cfg.nchip) :
    (storeLive k s.clk s).Ready := by
  have hupdate : updateTo k s.clk s = .ok (storeLive k s.clk s) :=
    updateTo_idle (hready.inv.chip k hk).rc_le fun x hrun => hready.lt_of_noneDue hnone hk hrun
  exact ⟨inv_updateTo hready.inv hk hready.room hupdate, hready.no_fault, hready.headroom⟩

/-- What the opening of an access leads to is ready, with nothing due and the chip reconciled at `clk`
(41_alarm_scheduler.md R130; 43_chip_timers.md R166). -/
theorem AccessedAs.ready (haccessed : AccessedAs s k t) (hready : s.Ready) (hk : k < s.cfg.nchip) :
    t.Ready ∧ t.NoneDue ∧ (t.chip k).rc = s.clk := by
  obtain ⟨s₁, ⟨n, hdispatch⟩, rfl⟩ := haccessed
  obtain ⟨s₂, m, hdispatch', hready₁, hnone, hclk⟩ := dispatch_of_ready hready
  cases hdispatch.symm.trans hdispatch'
  have hk₁ : k < s₁.cfg.nchip := by rwa [(DispatchKeeps.dispatch hdispatch).1.cfg]
  exact ⟨ready_storeLive hready₁ hnone hk₁, hnone, by rw [rc_storeLive (hready₁.inv.chip_lt hk₁), hclk]⟩

end

/-- Settles O24: every callback keeps the state ready (`ready_fire`) and lowers the measure (`dispatchFuel_fire`). -/
theorem dispatchCompletes : Obligations.DispatchCompletes := by
  unfold Obligations.DispatchCompletes
  exact fun _ hready => dispatch_of_ready hready

/-- Settles O33: the opening leads to the state `accessChip_of_ready` gives, and `AccessedAs.ready` says what it is. -/
theorem accessOpens : Obligations.AccessOpens := by
  unfold Obligations.AccessOpens
  intro s k hready hk
  obtain ⟨t, haccessed, hbody⟩ := accessChip_of_ready hready hk
  obtain ⟨hready', hnone, hrc⟩ := AccessedAs.ready haccessed hready hk
  exact ⟨t, haccessed, hready', hnone, hrc, hbody⟩

end Sys2Proof.Machine
end

section
/-! `ALARM_SET`, `ALARM_UNSET`, `ALARM_READ` and `ALARM_NEXT` (41_alarm_scheduler.md R122, R124, R126, R127). -/

namespace Sys2Proof.Machine

/-! ### Their command words -/

theorem decode_alarmSet {w : CmdWord} (h : opField w = 0x20) :
    decode w = .ok (.alarmSet (selNumber w) (dataField w)) := by
  unfold decode
  rw [h]
  rfl

theorem decode_alarmUnset {w : CmdWord} (h : opField w = 0x21) : decode w = .ok (.alarmUnset (selNumber w)) := by
  unfold decode
  rw [h]
  rfl

theorem decode_alarmNext {w : CmdWord} (h : opField w = 0x22) : decode w = .ok .alarmNext := by
  unfold decode
  rw [h]
  rfl

theorem decode_alarmRead {w : CmdWord} (h : opField w = 0x23) : decode w = .ok (.alarmRead (selNumber w)) := by
  unfold decode
  rw [h]
  rfl

section
variable {s : State} {a : Nat} {target : Cycle}

/-! ### Their selectors -/

/-- A slot that is absent or a chip's own is no external slot (41_alarm_scheduler.md R121). -/
theorem selectExternalSlot_of_not_external (h : s.cfg.nAlarms ≤ a ∨ a < 3 * s.cfg.nchip) :
    selectExternalSlot a s = .error .badSelector := if_pos h

theorem selectExternalSlot_of_external (hlt : a < s.cfg.nAlarms) (hge : 3 * s.cfg.nchip ≤ a) :
    selectExternalSlot a s = .ok () := selectExternalSlot_eq_ok.mpr ⟨hlt, hge⟩

theorem selectSlot_of_lt (h : a < s.cfg.nAlarms) : selectSlot a s = .ok () := selectSlot_eq_ok.mpr h

theorem selectSlot_of_absent (h : s.cfg.nAlarms ≤ a) : selectSlot a s = .error .badSelector := if_pos h

/-! ### Arming and disarming an external slot -/

theorem exec_alarmSet_of_not_external (hfault : s.fault = none) (h : s.cfg.nAlarms ≤ a ∨ a < 3 * s.cfg.nchip) :
    exec (.alarmSet a target) s = .next (takeFault .badSelector s) := by
  change execAlarmSet a target s = _
  rw [execAlarmSet, perform_of_none hfault, selectExternalSlot_of_not_external h, error_bind, conclude_error]

/-- `ALARM_SET` of an external slot comes to `AlarmSet` (41_alarm_scheduler.md R120, R122). -/
theorem exec_alarmSet_of_external (hfault : s.fault = none) (hlt : a < s.cfg.nAlarms) (hge : 3 * s.cfg.nchip ≤ a) :
    exec (.alarmSet a target) s =
      .next (conclude s (alarmSet a target.toNat s >>= fun s' => .ok (s', .nothing))) := by
  change execAlarmSet a target s = _
  rw [execAlarmSet, perform_of_none hfault, selectExternalSlot_of_external hlt hge, ok_bind]

theorem exec_alarmSet_never (hfault : s.fault = none) (hlt : a < s.cfg.nAlarms) (hge : 3 * s.cfg.nchip ≤ a) :
    exec (.alarmSet a never) s = .next (takeFault .clockOverflow s) := by
  have hstore : alarmSet a never.toNat s = .error .clockOverflow := alarmSet_eq_error.mpr ⟨Nat.le_refl _, rfl⟩
  rw [exec_alarmSet_of_external hfault hlt hge, hstore, error_bind, conclude_error]

theorem exec_alarmSet_of_ne_never (hfault : s.fault = none) (hlt : a < s.cfg.nAlarms) (hge : 3 * s.cfg.nchip ≤ a)
    (htarget : target ≠ never) :
    exec (.alarmSet a target) s = .next ((s.setAlarm a ⟨true, target⟩).answer .nothing) := by
  rw [exec_alarmSet_of_external hfault hlt hge, alarmSet_ok (toNat_lt_never htarget), ok_bind, conclude_ok,
    BitVec.ofNat_toNat, BitVec.setWidth_eq]

theorem exec_alarmUnset_of_not_external (hfault : s.fault = none) (h : s.cfg.nAlarms ≤ a ∨ a < 3 * s.cfg.nchip) :
    exec (.alarmUnset a) s = .next (takeFault .badSelector s) := by
  change execAlarmUnset a s = _
  rw [execAlarmUnset, perform_of_none hfault, selectExternalSlot_of_not_external h, error_bind, conclude_error]

theorem exec_alarmUnset_of_external (hfault : s.fault = none) (hlt : a < s.cfg.nAlarms) (hge : 3 * s.cfg.nchip ≤ a) :
    exec (.alarmUnset a) s = .next ((alarmUnset a s).answer .nothing) := by
  change execAlarmUnset a s = _
  rw [execAlarmUnset, perform_of_none hfault, selectExternalSlot_of_external hlt hge, ok_bind, conclude_ok]

/-! ### Reading a slot -/

theorem exec_alarmRead_of_absent (hfault : s.fault = none) (h : s.cfg.nAlarms ≤ a) :
    exec (.alarmRead a) s = .next (takeFault .badSelector s) := by
  change execAlarmRead a s = _
  rw [execAlarmRead, perform_of_none hfault, selectSlot_of_absent h, error_bind, conclude_error]

theorem exec_alarmRead_of_lt (hfault : s.fault = none) (h : a < s.cfg.nAlarms) :
    exec (.alarmRead a) s = .next (s.answer (.value (s.alarm a).target)) := by
  change execAlarmRead a s = _
  rw [execAlarmRead, perform_of_none hfault, selectSlot_of_lt h, ok_bind, conclude_ok]

/-- A disarmed slot reads `NEVER`, be it in the table or not (10_state.md R24). -/
theorem State.Inv.target_of_disarmed (hinv : s.Inv) (h : (s.alarm a).armed = false) : (s.alarm a).target = never := by
  rcases s.alarm_mem_or_absent a with hmem | habsent
  · exact hinv.disarmed_never _ hmem h
  · rw [habsent]
    rfl

/-! ### The earliest target -/

theorem Alarm.earlier_le (m : Cycle) (al : Alarm) : Alarm.earlier m al ≤ m := by
  unfold Alarm.earlier
  split
  case isTrue h =>
    have hlt : al.target < m := of_decide_eq_true (Bool.and_eq_true_iff.mp h).2
    exact Nat.le_of_lt hlt
  case isFalse => exact Nat.le_refl _

theorem Alarm.earlier_le_target (m : Cycle) {al : Alarm} (harmed : al.armed = true) :
    Alarm.earlier m al ≤ al.target := by
  unfold Alarm.earlier
  split
  case isTrue => exact Nat.le_refl _
  case isFalse h =>
    have hnot : ¬al.target < m := by simpa [harmed] using h
    exact Nat.le_of_not_lt hnot

theorem Alarm.earlier_cases (m : Cycle) (al : Alarm) :
    Alarm.earlier m al = m ∨ (al.armed = true ∧ Alarm.earlier m al = al.target) := by
  unfold Alarm.earlier
  split
  case isTrue h => exact .inr ⟨(Bool.and_eq_true_iff.mp h).1, rfl⟩
  case isFalse => exact .inl rfl

/-- The search goes down from where it starts, and to or below every armed target (41_alarm_scheduler.md R126). -/
theorem foldl_earlier_le (l : List Alarm) (m : Cycle) :
    l.foldl Alarm.earlier m ≤ m ∧ ∀ al ∈ l, al.armed = true → l.foldl Alarm.earlier m ≤ al.target := by
  induction l generalizing m with
  | nil => exact ⟨Nat.le_refl _, nofun⟩
  | cons al l ih =>
    obtain ⟨hstart, hrest⟩ := ih (Alarm.earlier m al)
    rw [List.foldl_cons]
    refine ⟨BitVec.le_trans hstart (Alarm.earlier_le m al), fun al' hmem harmed => ?_⟩
    rcases List.mem_cons.mp hmem with rfl | hmem
    · exact BitVec.le_trans hstart (Alarm.earlier_le_target m harmed)
    · exact hrest al' hmem harmed

/-- The search ends where it starts or at an armed target (41_alarm_scheduler.md R126). -/
theorem foldl_earlier_attained (l : List Alarm) (m : Cycle) :
    l.foldl Alarm.earlier m = m ∨ ∃ al ∈ l, al.armed = true ∧ al.target = l.foldl Alarm.earlier m := by
  induction l generalizing m with
  | nil => exact .inl rfl
  | cons al l ih =>
    rw [List.foldl_cons]
    rcases ih (Alarm.earlier m al) with hkept | ⟨al', hmem, harmed, htarget⟩
    · rw [hkept]
      refine (Alarm.earlier_cases m al).imp_right fun ⟨harmed, htarget⟩ => ?_
      exact ⟨al, List.mem_cons_self, harmed, htarget.symm⟩
    · exact .inr ⟨al', List.mem_cons_of_mem al hmem, harmed, htarget⟩

theorem State.nextDue_eq (s : State) : s.nextDue = s.alarms.foldl Alarm.earlier never := rfl

theorem exec_alarmNext (hfault : s.fault = none) : exec .alarmNext s = .next (s.answer (.value s.nextDue)) := by
  change execAlarmNext s = _
  rw [execAlarmNext, perform_of_none hfault, conclude_ok]

end

/-! ### The statements -/

/-- Settles O20: the selector check, then `AlarmSet`, which stores every target but `NEVER`. -/
theorem alarmSetArms : Obligations.AlarmSetArms := by
  unfold Obligations.AlarmSetArms
  refine ⟨fun _ hop => decode_alarmSet hop, fun s a target hfault =>
    ⟨exec_alarmSet_of_not_external hfault, fun hlt hge htarget => ?_, exec_alarmSet_of_ne_never hfault⟩⟩
  rw [htarget]
  exact exec_alarmSet_never hfault hlt hge

/-- Settles O21: the selector check, then `AlarmUnset`, which cannot fault. -/
theorem alarmUnsetDisarms : Obligations.AlarmUnsetDisarms := by
  unfold Obligations.AlarmUnsetDisarms
  exact ⟨fun _ hop => decode_alarmUnset hop, fun _ _ hfault =>
    ⟨exec_alarmUnset_of_not_external hfault, exec_alarmUnset_of_external hfault⟩⟩

/-- Settles O22: the answer is the slot's target, and the invariant says what that of a disarmed slot is. -/
theorem alarmReadReturnsTarget : Obligations.AlarmReadReturnsTarget := by
  unfold Obligations.AlarmReadReturnsTarget
  exact ⟨fun _ hop => decode_alarmRead hop, fun _ _ hfault =>
    ⟨exec_alarmRead_of_absent hfault, exec_alarmRead_of_lt hfault, fun hinv _ => hinv.target_of_disarmed⟩⟩

/-- Settles O23: the search through the table is bounded by every armed target and ends at one, or at `NEVER`. -/
theorem alarmNextIsMinimum : Obligations.AlarmNextIsMinimum := by
  unfold Obligations.AlarmNextIsMinimum
  refine ⟨fun _ hop => decode_alarmNext hop, fun s hfault => ⟨s.nextDue, exec_alarmNext hfault, ?_⟩⟩
  rw [State.nextDue_eq]
  exact ⟨(foldl_earlier_le s.alarms never).2, foldl_earlier_attained s.alarms never⟩

end Sys2Proof.Machine
end

section
/-! The events of a dispatch (41_alarm_scheduler.md R128, R129, R131): those emitted and those still owed are together
the same list all along. -/

namespace Sys2Proof.Machine

/-- Slot `a` is external and due (10_state.md R25; 41_alarm_scheduler.md R128). -/
def State.externalDue (s : State) (a : Nat) : Bool := decide (3 * s.cfg.nchip ≤ a) && (s.alarm a).due s.clk

/-- The event that slot `a` emits when it fires (41_alarm_scheduler.md R129). -/
def State.firedEvent (s : State) (a : Nat) : Event := .fired a (s.clk.toNat - (s.alarm a).target.toNat)

/-- The events that a dispatch still owes (41_alarm_scheduler.md R128, R129). -/
def State.eventsOwed (s : State) : List Event :=
  ((List.range s.alarms.length).filter s.externalDue).map s.firedEvent

/-- Taking the least element out of a filtered range. -/
theorem filter_range_eq_cons {n a : Nat} {p q : Nat → Bool} (ha : a < n) (hleast : ∀ b < a, p b = false)
    (hat : p a = true) (hq : ∀ b, q b = (p b && decide (b ≠ a))) :
    (List.range n).filter p = a :: (List.range n).filter q := by
  obtain ⟨m, rfl⟩ := Nat.exists_eq_add_of_lt ha
  have hp_below : (List.range a).filter p = [] :=
    List.filter_eq_nil_iff.mpr fun b hb => by simp [hleast b (List.mem_range.mp hb)]
  have hq_below : (List.range a).filter q = [] :=
    List.filter_eq_nil_iff.mpr fun b hb => by simp [hq, hleast b (List.mem_range.mp hb)]
  have hq_at : q a = false := by simp [hq]
  have habove : ((List.range m).map (a + 1 + ·)).filter p = ((List.range m).map (a + 1 + ·)).filter q := by
    refine List.filter_congr fun b hb => ?_
    obtain ⟨i, -, rfl⟩ := List.mem_map.mp hb
    have hne : a + 1 + i ≠ a := by omega
    simp [hq, hne]
  rw [show a + m + 1 = a + 1 + m by omega, List.range_add, List.range_succ]
  simp [hp_below, hq_below, hat, hq_at, habove]

section
variable {a : Nat} {s t : State}

theorem State.eventsOwed_of_noneDue (h : s.NoneDue) : s.eventsOwed = [] := by
  have hnone : (List.range s.alarms.length).filter s.externalDue = [] :=
    List.filter_eq_nil_iff.mpr fun a _ => by simp [State.externalDue, h.alarm a]
  rw [State.eventsOwed, hnone, List.map_nil]

/-- The slots of a chip are not external (10_state.md R25). -/
theorem OnlyChip.alarm_external {k b : Nat} (h : OnlyChip k s t) (hk : k < s.cfg.nchip) (hb : 3 * s.cfg.nchip ≤ b) :
    t.alarm b = s.alarm b := by
  refine h.alarm b ?_ ?_ ?_ <;> simp only [slotOf, todSlot] <;> omega

/-- Work on a chip makes no external slot due, and takes none away. -/
theorem OnlyChip.externalDue {k : Nat} (h : OnlyChip k s t) (hk : k < s.cfg.nchip) : t.externalDue = s.externalDue := by
  funext b
  unfold State.externalDue
  rw [h.cfg, h.clk]
  by_cases hb : 3 * s.cfg.nchip ≤ b
  · rw [h.alarm_external hk hb]
  · simp [hb]

theorem OnlyChip.eventsOwed {k : Nat} (h : OnlyChip k s t) (hk : k < s.cfg.nchip) : t.eventsOwed = s.eventsOwed := by
  unfold State.eventsOwed
  rw [h.alarms_length, h.externalDue hk]
  refine List.map_congr_left fun b hb => ?_
  have hexternal := (Bool.and_eq_true_iff.mp (List.mem_filter.mp hb).2).1
  rw [State.firedEvent, h.clk, h.alarm_external hk (of_decide_eq_true hexternal), State.firedEvent]

/-! ### An external slot that fires -/

/-- It alone is disarmed (41_alarm_scheduler.md R129). -/
theorem alarm_fired_ne {b : Nat} (e : Event) (h : b ≠ a) : (emit e (alarmUnset a s)).alarm b = s.alarm b :=
  State.alarm_setAlarm_ne s _ h

theorem externalDue_fired (e : Event) (s : State) (a b : Nat) :
    (emit e (alarmUnset a s)).externalDue b = (s.externalDue b && decide (b ≠ a)) := by
  by_cases hb : b = a
  · subst hb
    simp [State.externalDue, alarm_alarmUnset, Alarm.absent, Alarm.due]
  · rw [State.externalDue, alarm_fired_ne e hb, decide_eq_true hb, Bool.and_true]
    rfl

/-- The first due slot, if it is external, owes the first event (41_alarm_scheduler.md R131). -/
theorem State.eventsOwed_eq_cons (e : Event) (hfirst : s.firstDue = some a) (hext : 3 * s.cfg.nchip ≤ a) :
    s.eventsOwed = s.firedEvent a :: (emit e (alarmUnset a s)).eventsOwed := by
  obtain ⟨ha, hdue, hbefore⟩ := State.firstDue_eq_some.mp hfirst
  have hfilter : (List.range s.alarms.length).filter s.externalDue =
      a :: (List.range s.alarms.length).filter (emit e (alarmUnset a s)).externalDue :=
    filter_range_eq_cons ha (fun b hb => by simp [State.externalDue, hbefore b hb])
      (by simp [State.externalDue, hext, hdue]) (externalDue_fired e s a)
  have hlen : (emit e (alarmUnset a s)).alarms.length = s.alarms.length := List.length_set ..
  rw [State.eventsOwed, hfilter, List.map_cons, State.eventsOwed, hlen]
  refine congrArg (s.firedEvent a :: ·) (List.map_congr_left fun b hb => ?_)
  have hstill := (List.mem_filter.mp hb).2
  rw [externalDue_fired, Bool.and_eq_true] at hstill
  rw [State.firedEvent, State.firedEvent, alarm_fired_ne e (of_decide_eq_true hstill.2)]
  rfl

/-- A callback emits the first event that is owed, or none (41_alarm_scheduler.md R129). -/
theorem events_fire (hfirst : s.firstDue = some a) (h : fire a (s.clk.toNat - (s.alarm a).target.toNat) s = .ok t) :
    t.events ++ t.eventsOwed = s.events ++ s.eventsOwed := by
  by_cases ha : a < 3 * s.cfg.nchip
  case pos =>
    have honly := fire_onlyChip ha h
    have hk : a / 3 < s.cfg.nchip := by omega
    rw [honly.events, honly.eventsOwed hk]
  case neg =>
    rw [fire_external ha] at h
    cases h
    rw [State.eventsOwed_eq_cons (s.firedEvent a) hfirst (Nat.le_of_not_lt ha), emit_events, List.append_assoc]
    rfl

/-- A dispatch emits the events that it owes at its beginning (41_alarm_scheduler.md R128, R129). -/
theorem events_dispatch {n : Nat} (h : dispatch s = .ok (t, n)) : t.events = s.events ++ s.eventsOwed := by
  obtain ⟨hsame, hend⟩ := dispatchLoop_keeps (P := fun m => m.events ++ m.eventsOwed = s.events ++ s.eventsOwed)
    (fun _ _ _ hm hfirst hfire => (events_fire hfirst hfire).trans hm) rfl h
  rwa [State.eventsOwed_of_noneDue (State.firstDue_eq_none.mp hend), List.append_nil] at hsame

end

/-- Settles O26: the events owed are those of the due external slots in ascending order. -/
theorem dispatchEmitsFired : Obligations.DispatchEmitsFired := by
  unfold Obligations.DispatchEmitsFired
  exact fun _ _ _ h => events_dispatch h

end Sys2Proof.Machine
end

section
/-! The number of callbacks of a dispatch (41_alarm_scheduler.md R128, R134): each callback is one of those due before
it, and the others stay due. -/

namespace Sys2Proof.Machine

/-! ### Sums over a range -/

theorem length_filter_eq_sum {α : Type} (p : α → Bool) (l : List α) :
    (l.filter p).length = (l.map fun b => (p b).toNat).sum := by
  induction l with
  | nil => rfl
  | cons b l ih =>
    rw [List.map_cons, List.sum_cons, List.filter_cons, ← ih]
    cases p b
    · exact (Nat.zero_add _).symm
    · exact Nat.add_comm _ 1

/-- One term of a sum is less by one. -/
theorem sum_range_eq_succ {n i : Nat} {f g : Nat → Nat} (hi : i < n) (hat : f i = g i + 1)
    (hrest : ∀ j, j ≠ i → f j = g j) : ((List.range n).map f).sum = ((List.range n).map g).sum + 1 := by
  induction n with
  | zero => exact absurd hi (Nat.not_lt_zero i)
  | succ n ih =>
    rw [List.sum_range_succ, List.sum_range_succ]
    by_cases hin : i = n
    · subst hin
      rw [List.map_congr_left fun j hj => hrest j (Nat.ne_of_lt (List.mem_range.mp hj)), hat, Nat.add_assoc]
    · rw [ih (by omega), hrest n (Ne.symm hin)]
      omega

/-! ### What is owed -/

/-- The callbacks that the external slots owe (41_alarm_scheduler.md R129). -/
def State.firesOwed (s : State) : Nat := ((List.range s.cfg.nAlarms).map fun a => (s.externalDue a).toNat).sum

/-- The callbacks that the channels owe: one reconciliation of a chip serves both (41_alarm_scheduler.md R129). -/
def State.reconciliationsOwed (s : State) : Nat :=
  ((List.range s.cfg.nchip).map fun k => (s.channelDue k).toNat).sum

/-- The callbacks that the tick slots owe: one for each period that has come (41_alarm_scheduler.md R134). -/
def State.ticksOwed (s : State) : Nat :=
  ((List.range s.cfg.nchip).map fun k => (s.alarm (todSlot k)).lateness s.clk s.cfg.todPeriod).sum

theorem State.callbacksDue_eq (s : State) : s.callbacksDue = s.firesOwed + s.reconciliationsOwed + s.ticksOwed := by
  rw [State.firesOwed, ← length_filter_eq_sum, State.reconciliationsOwed, ← length_filter_eq_sum]
  rfl

theorem State.callbacksDue_of_noneDue {s : State} (h : s.NoneDue) : s.callbacksDue = 0 := by
  have hzero {n : Nat} {f : Nat → Nat} (hf : ∀ b, f b = 0) : ((List.range n).map f).sum = 0 := by
    simp [funext hf]
  rw [State.callbacksDue_eq, State.firesOwed, State.reconciliationsOwed, State.ticksOwed,
    hzero fun b => by simp [State.externalDue, h.alarm b],
    hzero fun b => by simp [State.channelDue, h.alarm],
    hzero fun b => Alarm.lateness_of_not_due (h.alarm _) _]

section
variable {a k overrun : Nat} {x : Channel} {s t : State}

/-! ### What a callback leaves owed -/

theorem OnlyChip.firesOwed (h : OnlyChip k s t) (hk : k < s.cfg.nchip) : t.firesOwed = s.firesOwed := by
  rw [State.firesOwed, h.cfg, h.externalDue hk, State.firesOwed]

theorem State.channelDue_congr (hclk : t.clk = s.clk) (h : ∀ x, t.alarm (slotOf k x) = s.alarm (slotOf k x)) :
    t.channelDue k = s.channelDue k := by
  rw [State.channelDue, h, h, hclk, State.channelDue]

/-- The reconciliation of a chip with a due channel is one callback fewer owed (41_alarm_scheduler.md R129). -/
theorem callbacksDue_updateTo (hready : s.Ready) (hk : k < s.cfg.nchip)
    (hdue : (s.alarm (slotOf k x)).due s.clk = true) (h : updateTo k s.clk s = .ok t) :
    s.callbacksDue = t.callbacksDue + 1 := by
  have hwork := Reconciling.updateTo h
  have hbefore : s.channelDue k = true := State.channelDue_eq_true.mpr ⟨x, hdue⟩
  have hafter : t.channelDue k = false := by
    simp [State.channelDue, due_updateTo hready.inv hk hready.room h]
  have hreconciliations : s.reconciliationsOwed = t.reconciliationsOwed + 1 := by
    unfold State.reconciliationsOwed
    rw [hwork.only.cfg]
    refine sum_range_eq_succ hk (by rw [hbefore, hafter]; rfl) fun j hj => ?_
    rw [State.channelDue_congr hwork.only.clk (hwork.only.alarm_of_ne hj).1]
  have hticks : t.ticksOwed = s.ticksOwed := by
    unfold State.ticksOwed
    rw [hwork.only.cfg, hwork.only.clk]
    refine congrArg List.sum (List.map_congr_left fun j _ => ?_)
    by_cases hj : j = k
    · rw [hj, hwork.alarm_tod]
    · rw [(hwork.only.alarm_of_ne hj).2]
  rw [State.callbacksDue_eq, State.callbacksDue_eq, hwork.only.firesOwed hk, hreconciliations, hticks]
  omega

/-- A tick armed again a period later owes exactly one callback fewer (41_alarm_scheduler.md R134). -/
theorem Alarm.lateness_eq_succ_next_tick {al : Alarm} {c : Cycle} {period : Nat} (hpos : 0 < period)
    (hfits : al.target.toNat + period < neverNat) (hdue : al.due c = true) :
    al.lateness c period = (Alarm.mk true (BitVec.ofNat 32 (al.target.toNat + period))).lateness c period + 1 := by
  have htarget := toNat_ofNat_cycle hfits
  have hnext : (Alarm.mk true (BitVec.ofNat 32 (al.target.toNat + period))).due c = true ↔
      al.target.toNat + period ≤ c.toNat := by
    rw [Alarm.due_iff, BitVec.le_def, htarget]
    exact and_iff_right rfl
  rw [Alarm.lateness_of_due hdue]
  by_cases hle : al.target.toNat + period ≤ c.toNat
  · have hsplit : c.toNat - al.target.toNat = (c.toNat - (al.target.toNat + period)) + period := by omega
    rw [Alarm.lateness_of_due (hnext.mpr hle), htarget, hsplit, Nat.add_div_right _ hpos]
  · rw [Alarm.lateness_of_not_due (Bool.eq_false_iff.mpr (mt hnext.mp hle)), Nat.div_eq_of_lt (by omega)]

/-- A tick is one callback fewer owed (41_alarm_scheduler.md R129, R134). -/
theorem callbacksDue_todTick (hinv : s.Inv) (hk : k < s.cfg.nchip) (hdue : (s.alarm (todSlot k)).due s.clk = true)
    (h : todTick k (s.alarm (todSlot k)).target s = .ok t) : s.callbacksDue = t.callbacksDue + 1 := by
  have honly := OnlyChip.todTick h
  have hreconciliations : t.reconciliationsOwed = s.reconciliationsOwed := by
    unfold State.reconciliationsOwed
    rw [honly.cfg]
    refine congrArg List.sum (List.map_congr_left fun j _ => ?_)
    rw [State.channelDue_congr honly.clk fun x => alarm_todTick h (slotOf_ne_todSlot j k x)]
  have hticks : s.ticksOwed = t.ticksOwed + 1 := by
    unfold State.ticksOwed
    rw [honly.cfg, honly.clk]
    refine sum_range_eq_succ hk ?_ fun j hj => by rw [(honly.alarm_of_ne hj).2]
    rw [alarm_todTick_self (hinv.todSlot_lt hk) h]
    exact Alarm.lateness_eq_succ_next_tick (todPeriod_pos_of_wf hinv.cfg_wf) (todTick_eq_ok.mp h).1 hdue
  rw [State.callbacksDue_eq, State.callbacksDue_eq, honly.firesOwed hk, hreconciliations, hticks]
  omega

/-- An external slot that fires is one callback fewer owed (41_alarm_scheduler.md R129). -/
theorem callbacksDue_fire_external (e : Event) (ha : a < s.cfg.nAlarms) (hext : 3 * s.cfg.nchip ≤ a)
    (hdue : (s.alarm a).due s.clk = true) : s.callbacksDue = (emit e (alarmUnset a s)).callbacksDue + 1 := by
  have hkept {b : Nat} (hb : b < 3 * s.cfg.nchip) : (emit e (alarmUnset a s)).alarm b = s.alarm b :=
    alarm_fired_ne e (by omega)
  have htod {j : Nat} (hj : j ∈ List.range s.cfg.nchip) : todSlot j < 3 * s.cfg.nchip := by
    have := List.mem_range.mp hj
    unfold todSlot
    omega
  have hfires : s.firesOwed = (emit e (alarmUnset a s)).firesOwed + 1 := by
    refine sum_range_eq_succ ha ?_ fun b hb => ?_
    · have hbefore : s.externalDue a = true := by simp [State.externalDue, hext, hdue]
      simp [externalDue_fired, hbefore]
    · simp [externalDue_fired, hb]
  have hreconciliations : (emit e (alarmUnset a s)).reconciliationsOwed = s.reconciliationsOwed := by
    refine congrArg List.sum (List.map_congr_left fun j hj => ?_)
    have hchannel : (emit e (alarmUnset a s)).channelDue j = s.channelDue j :=
      State.channelDue_congr rfl fun x => hkept (Nat.lt_trans (slotOf_lt j x).2 (htod hj))
    rw [hchannel]
  have hticks : (emit e (alarmUnset a s)).ticksOwed = s.ticksOwed := by
    refine congrArg List.sum (List.map_congr_left fun j hj => ?_)
    rw [hkept (htod hj)]
    rfl
  rw [State.callbacksDue_eq, State.callbacksDue_eq, hfires, hreconciliations, hticks]
  omega

/-- Every callback of a ready state is one of those owed (41_alarm_scheduler.md R129, R134). -/
theorem callbacksDue_fire (hready : s.Ready) (ha : a < s.alarms.length) (hdue : (s.alarm a).due s.clk = true)
    (h : fire a overrun s = .ok t) : s.callbacksDue = t.callbacksDue + 1 := by
  rcases slot_cases a s.cfg.nchip with ⟨k, x, hk, rfl⟩ | ⟨k, hk, rfl⟩ | hext
  · rw [fire_slotOf hk] at h
    exact callbacksDue_updateTo hready hk hdue h
  · rw [fire_todSlot hk] at h
    exact callbacksDue_todTick hready.inv hk hdue h
  · rw [fire_external (Nat.not_lt_of_le hext)] at h
    cases h
    exact callbacksDue_fire_external _ (by rwa [hready.inv.alarms_length] at ha) hext hdue

/-! ### The count -/

/-- The loop of a dispatch counts on by the callbacks owed (41_alarm_scheduler.md R128). -/
theorem dispatchLoop_count {fuel n m : Nat} (hready : s.Ready) (h : dispatchLoop fuel n s = .ok (t, m)) :
    m = n + s.callbacksDue := by
  induction fuel generalizing n s with
  | zero =>
    rcases dispatchLoop_eq_ok.mp h with ⟨hnone, -, rfl⟩ | ⟨a, f, s₁, -, hfuel, -⟩
    · rw [State.callbacksDue_of_noneDue (State.firstDue_eq_none.mp hnone), Nat.add_zero]
    · cases hfuel
  | succ fuel ih =>
    rcases dispatchLoop_eq_ok.mp h with ⟨hnone, -, rfl⟩ | ⟨a, f, s₁, hfirst, hfuel, hfire, hrest⟩
    · rw [State.callbacksDue_of_noneDue (State.firstDue_eq_none.mp hnone), Nat.add_zero]
    · cases hfuel
      obtain ⟨ha, hdue, -⟩ := State.firstDue_eq_some.mp hfirst
      rw [ih (ready_fire hready hdue hfire) hrest, callbacksDue_fire hready ha hdue hfire]
      omega

theorem dispatch_count {n : Nat} (hready : s.Ready) (h : dispatch s = .ok (t, n)) : n = s.callbacksDue := by
  rw [dispatchLoop_count hready h, Nat.zero_add]

theorem exec_dispatch_of_ok {n : Nat} (hfault : s.fault = none) (h : dispatch s = .ok (t, n)) :
    exec .dispatch s = .next (t.answer (.value (countWord n))) := by
  change execDispatch s = _
  rw [execDispatch, perform_of_none hfault, h, ok_bind, conclude_ok]

theorem toNat_countWord {n : Nat} (h : n < 2 ^ 32) : (countWord n).toNat = n := by
  rw [countWord, if_pos h, BitVec.toNat_ofNat, Nat.mod_eq_of_lt h]

end

/-- Settles O27: the dispatch counts the callbacks owed, and `DISPATCH` answers the count. -/
theorem dispatchReturnsCount : Obligations.DispatchReturnsCount := by
  unfold Obligations.DispatchReturnsCount
  intro s hready
  obtain ⟨t, n, hdispatch, -⟩ := dispatch_of_ready hready
  obtain rfl := dispatch_count hready hdispatch
  exact ⟨t, countWord s.callbacksDue, hdispatch, exec_dispatch_of_ok hready.no_fault hdispatch, toNat_countWord,
    fun hnone => ⟨congrArg Prod.fst (Except.ok.inj (hdispatch.symm.trans (dispatch_of_noneDue hnone))),
      State.callbacksDue_of_noneDue hnone⟩⟩

end Sys2Proof.Machine
end

section
/-! `IRQ_ASSERT`, `IRQ_DEASSERT`, `IRQ_QUERY`, `IRQ_CPUMASK` and `IRQ_STAMP` (42_interrupt_aggregator.md R141, R143 to
R148): each acts on the state that the implicit dispatch leads to. -/

namespace Sys2Proof.Machine

section
variable {m n : Nat} {b : Bool} {e : Cycle} {l : Line} {s t : State}

/-! ### The line of a source that is written -/

/-- A source asserted drives its line high (42_interrupt_aggregator.md R141). -/
theorem State.level_setSource_true (hn : n < s.cfg.nSources) (hsrc : n < s.src.length) :
    (s.setSource n true).level (s.lineOf n) = true :=
  (State.level_eq_true_iff _ _).mpr ⟨n, hn, rfl, State.source_setSource_self s true hsrc⟩

/-- A source cleared drives no line high (42_interrupt_aggregator.md R141). -/
theorem State.level_of_level_setSource_false (hsrc : n < s.src.length) (h : (s.setSource n false).level l = true) :
    s.level l = true := by
  obtain ⟨i, hi, hline, hsource⟩ := (State.level_eq_true_iff _ _).mp h
  have hne : i ≠ n := by
    rintro rfl
    rw [State.source_setSource_self s false hsrc] at hsource
    cases hsource
  rw [State.source_setSource_ne s false hne] at hsource
  exact (State.level_eq_true_iff _ _).mpr ⟨i, hi, hline, hsource⟩

/-- Asserting a source is an edge exactly when its line was low (42_interrupt_aggregator.md R143). -/
theorem State.rises_true (hn : n < s.cfg.nSources) (hsrc : n < s.src.length) :
    s.rises n true = !s.level (s.lineOf n) := by
  rw [State.rises, State.level_setSource_true hn hsrc, Bool.and_true]

/-- Clearing a source is no rising edge (42_interrupt_aggregator.md R143). -/
theorem State.rises_false (hsrc : n < s.src.length) : s.rises n false = false := by
  rw [State.rises]
  cases hafter : (s.setSource n false).level (s.lineOf n) with
  | false => exact Bool.and_false _
  | true =>
    rw [State.level_of_level_setSource_false hsrc hafter]
    rfl

/-! ### The steps of an operation on a source -/

theorem selectExternalSource_of_external (hn : n < s.cfg.nSources) (hext : s.cfg.nchip ≤ n) :
    selectExternalSource n s = .ok () := selectExternalSource_eq_ok.mpr ⟨hn, hext⟩

theorem cycleNotFuture_of_le (h : e ≤ s.clk) : cycleNotFuture e s = .ok () := cycleNotFuture_eq_ok.mpr h

theorem cycleNotFuture_of_lt (h : s.clk < e) : cycleNotFuture e s = .error .schedInconsistency := if_pos h

/-- An operation that begins with the implicit dispatch (41_alarm_scheduler.md R130). -/
theorem perform_afterDispatch (hfault : s.fault = none) (hdispatch : dispatch s = .ok (t, m))
    (body : State → Result) : perform s (fun s => afterDispatch s body) = .next (conclude s (body t)) := by
  rw [perform_of_none hfault, afterDispatch_of_ok hdispatch]

/-- An external source passes the selector check, so that the dispatch and the cycle check follow
(42_interrupt_aggregator.md R144). -/
theorem setSourceOp_of_external (hn : n < s.cfg.nSources) (hext : s.cfg.nchip ≤ n)
    (hdispatch : dispatch s = .ok (t, m)) :
    setSourceOp n b e s =
      (cycleNotFuture e t >>= fun _ => .ok (aggSet n b e t, .bit (newlyAsserted n b t))) := by
  rw [setSourceOp, selectExternalSource_of_external hn hext, ok_bind, afterDispatch_of_ok hdispatch]

theorem exec_irqAssert (hfault : s.fault = none) :
    exec (.irqAssert n e) s = .next (conclude s (setSourceOp n true e s)) := by
  change execIrqAssert n e s = _
  rw [execIrqAssert, perform_of_none hfault]

theorem exec_irqDeassert (hfault : s.fault = none) :
    exec (.irqDeassert n e) s = .next (conclude s (setSourceOp n false e s)) := by
  change execIrqDeassert n e s = _
  rw [execIrqDeassert, perform_of_none hfault]

/-! ### The steps of an operation on a line -/

theorem exec_irqQuery (hfault : s.fault = none) (hdispatch : dispatch s = .ok (t, m)) :
    exec (.irqQuery l e) s = .next (conclude s (cycleNotFuture e t >>= fun _ => .ok (t, .bit (t.level l)))) := by
  change execIrqQuery l e s = _
  rw [execIrqQuery, perform_afterDispatch hfault hdispatch]

theorem exec_irqCpumask (hfault : s.fault = none) (hdispatch : dispatch s = .ok (t, m)) :
    exec (.irqCpumask b) s = .next (State.answer { t with cpuMasked := b } .nothing) := by
  change execIrqCpumask b s = _
  rw [execIrqCpumask, perform_afterDispatch hfault hdispatch, conclude_ok]

theorem exec_irqStamp (hfault : s.fault = none) (hdispatch : dispatch s = .ok (t, m)) :
    exec (.irqStamp l) s = .next (t.answer (.value (t.lineClk l))) := by
  change execIrqStamp l s = _
  rw [execIrqStamp, perform_afterDispatch hfault hdispatch, conclude_ok]

/-! ### After the dispatch of a ready state -/

/-- A source of the configuration has its bit in the state that the dispatch leads to (10_state.md R26). -/
theorem State.Ready.source_dispatched (hready : s.Ready) (hdispatch : dispatch s = .ok (t, m))
    (hn : n < s.cfg.nSources) : n < t.cfg.nSources ∧ n < t.src.length := by
  have hkept := (DispatchKeeps.dispatch hdispatch).1
  rw [hkept.cfg, hkept.src_length, hready.inv.src_length]
  exact ⟨hn, hn⟩

theorem State.lineOf_dispatched (hdispatch : dispatch s = .ok (t, m)) : t.lineOf n = s.lineOf n := by
  rw [State.lineOf, (DispatchKeeps.dispatch hdispatch).1.cfg, State.lineOf]

/-- The write of an external source at a cycle that has come (42_interrupt_aggregator.md R144, R145). -/
theorem setSourceOp_of_le (hn : n < s.cfg.nSources) (hext : s.cfg.nchip ≤ n)
    (hdispatch : dispatch s = .ok (t, m)) (h : e ≤ s.clk) :
    setSourceOp n b e s = .ok (aggSet n b e t, .bit (newlyAsserted n b t)) := by
  rw [← (DispatchKeeps.dispatch hdispatch).1.clk] at h
  rw [setSourceOp_of_external hn hext hdispatch, cycleNotFuture_of_le h, ok_bind]

/-- A write at a cycle in the future faults (42_interrupt_aggregator.md R144; 60_exceptions.md R284). -/
theorem setSourceOp_of_lt (hn : n < s.cfg.nSources) (hext : s.cfg.nchip ≤ n)
    (hdispatch : dispatch s = .ok (t, m)) (h : s.clk < e) : setSourceOp n b e s = .error .schedInconsistency := by
  rw [← (DispatchKeeps.dispatch hdispatch).1.clk] at h
  rw [setSourceOp_of_external hn hext hdispatch, cycleNotFuture_of_lt h, error_bind]

/-- What asserting a source writes and answers, by the level its line had (42_interrupt_aggregator.md R143). -/
theorem answer_aggSet_true (hn : n < s.cfg.nSources) (hsrc : n < s.src.length) :
    (aggSet n true e s).answer (.bit (newlyAsserted n true s)) =
      if s.level (s.lineOf n) then (s.setSource n true).answer (.bit false)
      else ((s.setSource n true).setLineClk (s.lineOf n) e).answer
        (.bit (!(decide (s.lineOf n = .maskable) && s.cpuMasked))) := by
  rw [aggSet, newlyAsserted, State.rises_true hn hsrc]
  cases s.level (s.lineOf n) <;> rfl

/-- What clearing a source writes and answers (42_interrupt_aggregator.md R143). -/
theorem answer_aggSet_false (hsrc : n < s.src.length) :
    (aggSet n false e s).answer (.bit (newlyAsserted n false s)) = (s.setSource n false).answer (.bit false) := by
  rw [aggSet, newlyAsserted, State.rises_false hsrc]
  rfl

end

/-! ### The statements -/

/-- Settles O28: asserting a source is an edge exactly when its line was low. -/
theorem irqAssertSets : Obligations.IrqAssertSets := by
  unfold Obligations.IrqAssertSets
  intro s n e hready hn hext
  obtain ⟨t, m, hdispatch, -⟩ := dispatch_of_ready hready
  obtain ⟨hn', hsrc⟩ := hready.source_dispatched hdispatch hn
  refine ⟨t, ⟨m, hdispatch⟩, fun hpast => ?_, fun hfuture => ?_⟩
  · rw [← State.lineOf_dispatched hdispatch, ← (DispatchKeeps.dispatch hdispatch).1.cpuMasked,
      exec_irqAssert hready.no_fault, setSourceOp_of_le hn hext hdispatch hpast, conclude_ok,
      answer_aggSet_true hn' hsrc]
    exact ⟨State.level_setSource_true hn' hsrc, rfl⟩
  · rw [FaultsWith, exec_irqAssert hready.no_fault, setSourceOp_of_lt hn hext hdispatch hfuture, conclude_error]

/-- Settles O29: clearing a source is no rising edge of any line. -/
theorem irqDeassertClears : Obligations.IrqDeassertClears := by
  unfold Obligations.IrqDeassertClears
  intro s n e hready hn hext
  obtain ⟨t, m, hdispatch, -⟩ := dispatch_of_ready hready
  obtain ⟨-, hsrc⟩ := hready.source_dispatched hdispatch hn
  refine ⟨t, ⟨m, hdispatch⟩, fun hpast => ?_, fun hfuture => ?_⟩
  · rw [exec_irqDeassert hready.no_fault, setSourceOp_of_le hn hext hdispatch hpast, conclude_ok,
      answer_aggSet_false hsrc]
    rfl
  · rw [FaultsWith, exec_irqDeassert hready.no_fault, setSourceOp_of_lt hn hext hdispatch hfuture, conclude_error]

/-- Settles O30: the answer is the level after the dispatch, which the parameters and the sources then give. -/
theorem irqQueryReturnsLevel : Obligations.IrqQueryReturnsLevel := by
  unfold Obligations.IrqQueryReturnsLevel
  intro s l e hready
  obtain ⟨t, m, hdispatch, -, -, hclk⟩ := dispatch_of_ready hready
  refine ⟨t, ⟨m, hdispatch⟩, fun hpast => ⟨t.level l, ?_, ?_⟩, fun hfuture => ?_⟩
  · rw [exec_irqQuery hready.no_fault hdispatch, cycleNotFuture_of_le (by rwa [hclk]), ok_bind, conclude_ok]
  · rw [← (DispatchKeeps.dispatch hdispatch).1.cfg]
    exact State.level_eq_true_iff t l
  · rw [FaultsWith, exec_irqQuery hready.no_fault hdispatch, cycleNotFuture_of_lt (by rwa [hclk]), error_bind,
      conclude_error]

/-- Settles O31: the mask is no part of a line's level. -/
theorem irqCpumaskSetsMask : Obligations.IrqCpumaskSetsMask := by
  unfold Obligations.IrqCpumaskSetsMask
  intro s b hready
  obtain ⟨t, m, hdispatch, -⟩ := dispatch_of_ready hready
  exact ⟨t, ⟨m, hdispatch⟩, _, exec_irqCpumask hready.no_fault hdispatch, rfl, fun _ => rfl⟩

/-- Settles O32: the answer is the stamp of the line after the dispatch. -/
theorem irqStampReturnsEdge : Obligations.IrqStampReturnsEdge := by
  unfold Obligations.IrqStampReturnsEdge
  intro s l hready
  obtain ⟨t, m, hdispatch, -⟩ := dispatch_of_ready hready
  exact ⟨t, ⟨m, hdispatch⟩, exec_irqStamp hready.no_fault hdispatch⟩

end Sys2Proof.Machine
end

section
/-! The register accesses of the countdown channels (43_chip_timers.md R170, R186 to R200): with room below `NEVER` an
access opens in a state that is ready and reconciled (`Opened`), where no rule's cycle value overflows; each operation is
then its rule at that state. -/

namespace Sys2Proof.Machine

section
variable {k : Nat} {x : Channel} {s t : State}

/-! ### The opening -/

/-- What the opening of an access to chip `k` leads to (44_chip_icr_sdr_ports.md R231; 43_chip_timers.md R166). -/
structure Opened (k : Nat) (s t : State) : Prop where
  accessed : AccessedAs s k t
  opens : OpensTo k s t
  ready : t.Ready
  none_due : t.NoneDue
  cfg : t.cfg = s.cfg
  clk : t.clk = s.clk
  rc : (t.chip k).rc = s.clk
  live : ∀ x, (t.chip k).live x s.clk = ((t.chip k).chan x).cnt

theorem Chip.live_live (c : Chip) (x : Channel) (e : Cycle) :
    (c.setChan x { c.chan x with cnt := c.live x e }).live x e = c.live x e := by
  have hctl : (c.setChan x { c.chan x with cnt := c.live x e }).chanState x = c.chanState x :=
    Chip.chanState_congr (Chip.ctl_setChan _ _ _ _)
  by_cases hrun : c.chanState x = .running
  · rw [Chip.live_of_running (by rw [hctl, hrun]), Chip.chan_setChan]
    dsimp only
    rw [Chip.live_of_running hrun, toNat_ofNat_min_count, Nat.min_assoc, Nat.min_self]
  · rw [Chip.live_of_idle (by rwa [hctl]), Chip.chan_setChan]

/-- The live counters of a chip just reconciled are its stored ones (43_chip_timers.md R166, R167). -/
theorem live_storeLive (hk : k < s.chips.length) (x : Channel) (e : Cycle) :
    ((storeLive k e s).chip k).live x e = (s.chip k).live x e := by
  have hchan : ((storeLive k e s).chip k).chan x =
      ((s.chip k).setChan x { (s.chip k).chan x with cnt := (s.chip k).live x e }).chan x := by
    rw [chan_storeLive hk, Chip.chan_setChan]
  have hctl : ((storeLive k e s).chip k).ctl x =
      ((s.chip k).setChan x { (s.chip k).chan x with cnt := (s.chip k).live x e }).ctl x := by
    rw [ctl_storeLive hk, Chip.ctl_setChan]
  rw [Chip.live_congr hchan hctl, Chip.live_live]

theorem opened_of_ready (hready : s.Ready) (hk : k < s.cfg.nchip) : ∃ t, Opened k s t := by
  obtain ⟨t, haccessed, hbody⟩ := accessChip_of_ready hready hk
  obtain ⟨ht, hnone, hrc⟩ := haccessed.ready hready hk
  obtain ⟨s₁, ⟨n, hdispatch⟩, rfl⟩ := haccessed
  have hkeeps := (DispatchKeeps.dispatch hdispatch).1
  have hlt : k < s₁.chips.length := by rw [hkeeps.chips_length]; exact hready.inv.chip_lt hk
  refine ⟨_, ⟨s₁, ⟨n, hdispatch⟩, rfl⟩, ⟨hready.no_fault, hbody⟩, ht, hnone, hkeeps.cfg, hkeeps.clk, hrc, fun x => ?_⟩
  rw [← hkeeps.clk, live_storeLive hlt, chan_storeLive hlt]

theorem Opened.nchip_lt (h : Opened k s t) (hk : k < s.cfg.nchip) : k < t.cfg.nchip := by rwa [h.cfg]

theorem Opened.chip_lt (h : Opened k s t) (hk : k < s.cfg.nchip) : k < t.chips.length :=
  h.ready.inv.chip_lt (h.nchip_lt hk)

theorem OpensTo.perform_writeChip (h : OpensTo k s t) (effect : State → State) :
    perform s (writeChip k effect) = .next ((effect t).answer .nothing) := h.perform_accessChip _

theorem OpensTo.perform_writeChipE {u : State} {effect : State → Except FaultCode State} (h : OpensTo k s t)
    (heffect : effect t = .ok u) : perform s (writeChipE k effect) = .next (u.answer .nothing) := by
  refine (h.perform_accessChip _).trans ?_
  rw [heffect]
  rfl

/-! ### Latch writes -/

/-- A running channel's next underflow is near enough that a latch write can move it (40_counter_guard.md R104;
43_chip_timers.md R162). -/
theorem Opened.latch_fits (h : Opened k s t) (hk : k < s.cfg.nchip) (hrun : (t.chip k).chanState x = .running)
    (hcnt : ((t.chip k).chan x).cnt = ((t.chip k).chan x).latch) (new : Count) :
    max (((t.chip k).chan x).u.toNat - ((t.chip k).chan x).latch.toNat + new.toNat) (s.clk.toNat + 1) < neverNat := by
  have hwindow := ((h.ready.inv.chip k (h.nchip_lt hk)).chan x).running_window hrun
  have hroom := h.ready.headroom
  have hnew := new.isLt
  rw [h.rc, hcnt] at hwindow
  unfold State.Headroom at hroom
  rw [h.clk] at hroom
  omega

theorem Opened.writeLatchByte (h : Opened k s t) (hk : k < s.cfg.nchip) (x : Channel) (half : Half) (v : Byte) :
    let ch := (t.chip k).chan x
    let new := latchWith ch.latch half v
    let u : Cycle := BitVec.ofNat 32 (max (ch.u.toNat - ch.latch.toNat + new.toNat) (s.clk.toNat + 1))
    perform s (writeChipE k (writeLatchByte k x half v)) = .next
      (if (t.chip k).chanState x = .running ∧ ch.cnt = ch.latch then
        ((t.setChan k x { ch with latch := new, cnt := new, u := u }).setAlarm (slotOf k x) ⟨true, u⟩).answer .nothing
      else (t.setChan k x { ch with latch := new }).answer .nothing) := by
  dsimp only
  have heffect := writeLatchByte_eq k x half v t
  rw [h.clk, h.live] at heffect
  split
  case isTrue hthrough =>
    rw [if_pos hthrough, schedule_of_lt (h.latch_fits hk hthrough.1 hthrough.2 _)] at heffect
    exact h.opens.perform_writeChipE heffect
  case isFalse hstored =>
    rw [if_neg hstored] at heffect
    exact h.opens.perform_writeChipE heffect

/-! ### Control writes -/

theorem countsClock_eq_decide (x : Channel) (v : Byte) : countsClock x v = decide (ctlState x v = .running) := by
  unfold countsClock ctlState
  cases v.getLsbD 0 with
  | false => rfl
  | true => cases x <;> unfold selectsClock <;> cases v.getLsbD 5 <;> cases v.getLsbD 6 <;> rfl

theorem satDec_eq (u : Count) : satDec u = BitVec.ofNat 16 (u.toNat - 1) := by
  unfold satDec
  split
  case isTrue hzero => rw [hzero]; rfl
  case isFalse hne =>
    have hpos : u.toNat ≠ 0 := fun hzero => hne (BitVec.eq_of_toNat_eq hzero)
    bv_omega

/-- What a control write does to its channel before the byte is stored, the channel counting cycles before (`was`) and
after (`will`), the strobe given (43_chip_timers.md R170). -/
def counted (k : Nat) (x : Channel) (was will load : Bool) (s : State) : State :=
  let ch := (s.chip k).chan x
  let cnt : Count := if load then ch.latch else if was && !will then BitVec.ofNat 16 (ch.cnt.toNat - 1) else ch.cnt
  let u : Cycle := BitVec.ofNat 32 (s.clk.toNat + cnt.toNat + 1 + load.toNat)
  if will && (!was || load) then (s.setChan k x { ch with cnt := cnt, u := u }).setAlarm (slotOf k x) ⟨true, u⟩
  else if was && !will then (s.setChan k x { ch with cnt := cnt, u := never }).setAlarm (slotOf k x) ⟨false, never⟩
  else s.setChan k x { ch with cnt := cnt }

theorem Opened.controlEffect (h : Opened k s t) (hk : k < s.cfg.nchip) (x : Channel) (v : Byte) :
    controlEffect k x v t =
      .ok (counted k x (decide ((t.chip k).chanState x = .running)) (decide (ctlState x v = .running)) (v.getLsbD 4) t) := by
  have hfits (n : Count) (d : Nat) (hd : d ≤ 2) : t.clk.toNat + (n.toNat + d) < neverNat := by
    have hroom := h.ready.headroom
    have hn := n.isLt
    unfold State.Headroom at hroom
    omega
  have hsame (ch : Chan) (hch : ch = (t.chip k).chan x) : t = t.setChan k x ch := by
    rw [hch, State.setChan]
    exact ((congrArg (t.setChip k) (by cases x <;> rfl)).trans (State.setChip_chip_self t (h.chip_lt hk))).symm
  unfold Machine.controlEffect
  rw [← countsClock_eq_decide, loadStrobe]
  cases decide ((t.chip k).chanState x = .running) <;> cases countsClock x v
  case false.true =>
    dsimp only
    rw [startChannel_eq, schedule_of_lt]
    · cases v.getLsbD 4 <;> rfl
    · rw [Nat.add_assoc]
      exact hfits _ _ (by cases v.getLsbD 4 <;> decide)
  case true.true =>
    cases v.getLsbD 4 with
    | true =>
      dsimp only
      rw [if_pos rfl, reloadRunning_eq, schedule_of_lt (hfits _ _ (Nat.le_refl 2))]
      rfl
    | false => exact congrArg Except.ok (hsame _ rfl)
  case true.false =>
    have hlive := h.live x
    rw [← h.clk] at hlive
    dsimp only
    rw [stopChannel, hlive, satDec_eq]
    rfl
  case false.false =>
    cases v.getLsbD 4 with
    | true => rfl
    | false => exact congrArg Except.ok (hsame _ rfl)

theorem Opened.writeControl (h : Opened k s t) (hk : k < s.cfg.nchip) (x : Channel) (v : Byte) :
    perform s (writeChipE k (writeControl k x v)) = .next
      (((counted k x (decide ((t.chip k).chanState x = .running)) (decide (ctlState x v = .running))
        (v.getLsbD 4) t).setCtl k x (v &&& 0xEF)).answer .nothing) := by
  refine h.opens.perform_writeChipE ?_
  rw [Machine.writeControl, h.controlEffect hk]
  rfl

end

/-! ### The statements -/

/-- Settles O44: the opening stores the live values, so what is read is what `Live` gives before. -/
theorem counterReadsReturnLive : Obligations.CounterReadsReturnLive := by
  unfold Obligations.CounterReadsReturnLive
  intro s k hready hk
  obtain ⟨t, h⟩ := opened_of_ready hready hk
  obtain ⟨s₁, hdispatch, ht⟩ := h.accessed
  obtain ⟨n, hdispatched⟩ := hdispatch
  have hkeeps := (DispatchKeeps.dispatch hdispatched).1
  have hlt : k < s₁.chips.length := by rw [hkeeps.chips_length]; exact hready.inv.chip_lt hk
  refine ⟨s₁, t, ⟨n, hdispatched⟩, h.accessed, fun x => (t.chip k).live x t.clk, fun x => ?_,
    h.opens.perform_readChip _, h.opens.perform_readChip _, h.opens.perform_readChip _, h.opens.perform_readChip _⟩
  dsimp only
  rw [h.clk, ht, hkeeps.clk, live_storeLive hlt]
  split
  case isTrue hrun => rw [Chip.live_of_running hrun, toNat_ofNat_min_count]
  case isFalse hidle => rw [Chip.live_of_idle hidle]

/-- Settles O45: the four writes are `WriteLatchByte` at the opened state, where the live counter is the stored one. -/
theorem latchWritesReplaceByte : Obligations.LatchWritesReplaceByte := by
  unfold Obligations.LatchWritesReplaceByte
  intro s k v hready hk
  obtain ⟨t, h⟩ := opened_of_ready hready hk
  refine ⟨t, h.accessed, List.forall_mem_cons.mpr ⟨?_, List.forall_mem_cons.mpr ⟨?_, List.forall_mem_cons.mpr
    ⟨?_, List.forall_mem_singleton.mpr ?_⟩⟩⟩⟩
  · exact h.writeLatchByte hk .A .lo v
  · exact h.writeLatchByte hk .A .hi v
  · exact h.writeLatchByte hk .B .lo v
  · exact h.writeLatchByte hk .B .hi v

/-- Settles O46: the two writes are `WriteControl` at the opened state, with room for every cycle value. -/
theorem controlWritesTransition : Obligations.ControlWritesTransition := by
  unfold Obligations.ControlWritesTransition
  intro s k v hready hk
  obtain ⟨t, h⟩ := opened_of_ready hready hk
  refine ⟨t, h.accessed, List.forall_mem_cons.mpr ⟨?_, List.forall_mem_singleton.mpr ?_⟩⟩
  · rw [← h.clk]
    exact h.writeControl hk .A v
  · rw [← h.clk]
    exact h.writeControl hk .B v

/-- Settles O47: after the dispatch no underflow is left at or before `clk`, so a reconciliation stores the live values,
and its two checks are the two faults. -/
theorem chipUpdateReconciles : Obligations.ChipUpdateReconciles := by
  unfold Obligations.ChipUpdateReconciles
  intro s k cycle hready hk
  obtain ⟨s₁, n, hdispatch, hready₁, hnone, hclk⟩ := dispatch_of_ready hready
  have hk₁ : k < s₁.cfg.nchip := by rwa [(DispatchKeeps.dispatch hdispatch).1.cfg]
  have hbody : exec (.chipUpdate k cycle) s = .next (conclude s
      (cycleNotFuture cycle s₁ >>= fun _ => updateTo k cycle s₁ >>= fun s => .ok (s, .nothing))) := by
    change perform s (fun s => onChip k s fun s =>
      cycleNotFuture cycle s >>= fun _ => updateTo k cycle s >>= fun s => .ok (s, .nothing)) = _
    rw [perform_of_none hready.no_fault, onChip, selectChip_ok hk]
    exact congrArg (fun r => Host.Outcome.next (conclude s r))
      (afterDispatch_of_ok hdispatch fun s =>
        cycleNotFuture cycle s >>= fun _ => updateTo k cycle s >>= fun s => .ok (s, .nothing))
  refine ⟨s₁, ⟨n, hdispatch⟩, fun hfuture => ?_, fun hpast => ?_, fun hpast hnow => ?_⟩
  · rw [hbody, cycleNotFuture_of_lt (by rwa [hclk])]
    rfl
  · rw [hbody, updateTo, if_pos hpast]
    unfold cycleNotFuture
    split <;> rfl
  · have hidle : ∀ x, (s₁.chip k).chanState x = .running → cycle < ((s₁.chip k).chan x).u := fun x hrun =>
      BitVec.lt_def.mpr <| Nat.lt_of_le_of_lt (BitVec.le_def.mp hnow) <|
        hclk ▸ BitVec.lt_def.mp (hready₁.lt_of_noneDue hnone hk₁ hrun)
    rw [hbody, cycleNotFuture_of_le (by rwa [hclk]), updateTo_idle hpast hidle]
    rfl

end Sys2Proof.Machine
end
section
/-! The invariant right after reset (43_chip_timers.md R162; 70_reset_and_hazards.md R310): every channel is idle and
every slot but the ticks' is disarmed. -/

namespace Sys2Proof.Machine

section
variable {cfg : Config} {draw : Nat → Count} {k : Nat}

theorem getD_map_range {α : Type} (f : Nat → α) (d : α) {n i : Nat} (hi : i < n) :
    ((List.range n).map f).getD i d = f i := by
  simp [List.getD_eq_getElem?_getD, hi]

theorem chip_resetOf (hk : k < cfg.nchip) :
    (State.resetOf cfg draw).chip k = Chip.atReset (draw (2 * k)) (draw (2 * k + 1)) := getD_map_range _ _ hk

theorem alarm_resetOf {a : Nat} (ha : a < cfg.nAlarms) : (State.resetOf cfg draw).alarm a = Alarm.atReset cfg a :=
  getD_map_range _ _ ha

theorem source_resetOf (n : Nat) : (State.resetOf cfg draw).source n = false := by
  simp only [State.source, State.resetOf, List.getD_eq_getElem?_getD, List.getElem?_replicate]
  split <;> rfl

theorem Alarm.atReset_slotOf (cfg : Config) (k : Nat) (x : Channel) : Alarm.atReset cfg (slotOf k x) = ⟨false, never⟩ :=
  if_neg fun h => by cases x <;> simp only [slotOf] at h <;> omega

theorem Alarm.atReset_todSlot (hk : k < cfg.nchip) : (Alarm.atReset cfg (todSlot k)).armed = true := by
  rw [Alarm.atReset, if_pos ⟨by unfold todSlot; omega, by unfold todSlot; omega⟩]

theorem Alarm.atReset_sound (hwf : cfg.Wf) (a : Nat) : (Alarm.atReset cfg a).Sound := by
  unfold Alarm.atReset
  split
  · exact Alarm.sound_armed (by rw [toNat_ofNat_cycle hwf.todPeriod_lt]; exact hwf.todPeriod_lt)
  · exact Alarm.sound_disarmed

/-- The bits that a chip's registers never hold (10_state.md R35, R36, R38, R39; 45_chip_tod.md R240): the part of
`ChipInv` that is about the chip's registers alone. -/
structure Chip.Sound (c : Chip) : Prop where
  srBits_le : c.srBits.toNat ≤ 16
  mask_low : c.mask &&& 0xF0 = 0
  flags_low : c.flags &&& 0xF0 = 0
  cra_strobe : c.cra &&& 0x10 = 0
  crb_strobe : c.crb &&& 0x10 = 0
  tod_masked : c.tod.Masked
  todAlarm_masked : c.todAlarm.Masked
  todLatch_masked : c.todLatch.Masked

theorem ChipInv.sound {s : State} (h : ChipInv s k) : (s.chip k).Sound :=
  ⟨h.srBits_le, h.mask_low, h.flags_low, h.cra_strobe, h.crb_strobe, h.tod_masked, h.todAlarm_masked,
    h.todLatch_masked⟩

theorem Tod.zero_masked : Tod.zero.Masked := by decide

theorem Chip.atReset_sound (a b : Count) : (Chip.atReset a b).Sound where
  srBits_le := Nat.zero_le _
  mask_low := BitVec.zero_and
  flags_low := BitVec.zero_and
  cra_strobe := BitVec.zero_and
  crb_strobe := BitVec.zero_and
  tod_masked := Tod.zero_masked
  todAlarm_masked := Tod.zero_masked
  todLatch_masked := Tod.zero_masked

theorem Chip.atReset_summary (a b : Count) : (Chip.atReset a b).summary = false := by
  simp [Chip.summary, Chip.atReset]

theorem Chip.atReset_idle (a b : Count) (x : Channel) : (Chip.atReset a b).chanState x ≠ .running := by
  have hctl : (Chip.atReset a b).ctl x = 0 := by cases x <;> rfl
  rw [Chip.chanState, hctl]
  cases x <;> decide

theorem chipInv_resetOf (hwf : cfg.Wf) (hk : k < cfg.nchip) : ChipInv (State.resetOf cfg draw) k := by
  have hslots := hwf.slots_ge
  have hchip := chip_resetOf (draw := draw) hk
  have hsound : ((State.resetOf cfg draw).chip k).Sound := hchip ▸ Chip.atReset_sound _ _
  have hidle (x : Channel) : ((State.resetOf cfg draw).chip k).chanState x ≠ .running := by
    rw [hchip]
    exact Chip.atReset_idle _ _ x
  have hslot (x : Channel) : (State.resetOf cfg draw).alarm (slotOf k x) = ⟨false, never⟩ := by
    rw [alarm_resetOf (by cases x <;> simp only [slotOf] <;> omega), Alarm.atReset_slotOf]
  have hnever (x : Channel) : (((State.resetOf cfg draw).chip k).chan x).u = never := by
    rw [hchip]
    cases x <;> rfl
  exact {
    chan := fun x => ⟨fun h => absurd h (hidle x), fun h => absurd h (hidle x), fun h => absurd h (hidle x),
      fun _ => hnever x, fun _ => hslot x⟩
    rc_le := by rw [hchip]; exact BitVec.le_refl _
    lastRead_le := by rw [hchip]; exact fun _ h => nomatch h
    source_eq := by rw [source_resetOf, hchip, Chip.atReset_summary]
    srBits_le := hsound.srBits_le
    tod_armed := by rw [alarm_resetOf (by simp only [todSlot]; omega), Alarm.atReset_todSlot hk]
    mask_low := hsound.mask_low
    flags_low := hsound.flags_low
    cra_strobe := hsound.cra_strobe
    crb_strobe := hsound.crb_strobe
    tod_masked := hsound.tod_masked
    todAlarm_masked := hsound.todAlarm_masked
    todLatch_masked := hsound.todLatch_masked }

theorem inv_resetOf (hwf : cfg.Wf) : (State.resetOf cfg draw).Inv where
  cfg_wf := hwf
  alarms_length := by simp [State.resetOf]
  src_length := by simp [State.resetOf]
  chips_length := by simp [State.resetOf]
  clk_lt := Nat.zero_lt_succ _
  armed_lt := fun al hal => by
    obtain ⟨a, -, rfl⟩ := List.mem_map.mp hal
    exact (Alarm.atReset_sound hwf a).1
  disarmed_never := fun al hal => by
    obtain ⟨a, -, rfl⟩ := List.mem_map.mp hal
    exact (Alarm.atReset_sound hwf a).2
  lineClk_le := fun l => by cases l <;> exact BitVec.le_refl _
  chip := fun _ hk => chipInv_resetOf hwf hk

end

/-- Settles O12: `inv_resetOf`, the reference configuration being one of the well-formed ones. -/
theorem resetMeetsInvariant : Obligations.ResetMeetsInvariant := by
  unfold Obligations.ResetMeetsInvariant
  exact ⟨inv_resetOf (cfg_wf_of_check (by decide)), fun _ _ hwf => inv_resetOf hwf⟩

end Sys2Proof.Machine
end

section
/-! What flags, half-bits and count events make of a chip, as functions of the chip alone (43_chip_timers.md R164, R165;
44_chip_icr_sdr_ports.md R210, R218). `won` says that the last read of the flags suppresses every flag that is set,
`early` is `SR_EARLY`. A lemma `chip_...` ties each function to the operation of the model that it describes. -/

namespace Sys2Proof.Machine

theorem byte_or_zero (v : Byte) : v ||| 0 = v := BitVec.or_zero

theorem byte_zero_or (v : Byte) : 0 ||| v = v := BitVec.zero_or

/-- What setting a flag adds to the flags (44_chip_icr_sdr_ports.md R210). -/
def addedFlag (won : Bool) (bit : Byte) : Byte := if won then 0 else bit

/-- A flag is set, unless a read has won (44_chip_icr_sdr_ports.md R210). -/
def Chip.flagged (won : Bool) (bit : Byte) (c : Chip) : Chip := { c with flags := c.flags ||| addedFlag won bit }

/-- The shift register is enabled, with a transfer in progress (44_chip_icr_sdr_ports.md R218). -/
abbrev Chip.Shifting (c : Chip) : Prop := c.cra.getLsbD 6 = true ∧ c.srBits.toNat ≠ 0

/-- One underflow of channel A clocks the shift register (44_chip_icr_sdr_ports.md R218). -/
def Chip.clocked (won : Bool) (early : Option Nat) (c : Chip) : Chip :=
  if c.Shifting then
    { c with
      srBits := c.srBits - 1
      flags := c.flags ||| if c.srBits.toNat = early.getD 0 + 1 then addedFlag won flagSdr else 0 }
  else c

/-- Channel `x` as a count event underflows: reloaded, its toggle flipped, stopped if it is one-shot
(43_chip_timers.md R165). -/
def Chip.reload (x : Channel) (c : Chip) : Chip :=
  (c.setChan x { c.chan x with cnt := (c.chan x).latch, toggle := !(c.chan x).toggle }).setCtl x (c.ctlAfter x)

/-- One count event of channel `x`, the effects of an underflow given (43_chip_timers.md R165). -/
def Chip.countOnce (underflow : Chip → Chip) (x : Channel) (c : Chip) : Chip :=
  if countDown (c.chan x).cnt = 0 then underflow (c.reload x)
  else c.setChan x { c.chan x with cnt := countDown (c.chan x).cnt }

/-- One count event of channel B in the counting state `mode`, and none in any other (43_chip_timers.md R165). -/
def Chip.countB (won : Bool) (mode : ChanState) (c : Chip) : Chip :=
  if c.chanState .B = mode then c.countOnce (Chip.flagged won (flagOf .B)) .B else c

/-- The effects of `n` underflows of channel `x` (43_chip_timers.md R164). -/
def Chip.afterUnderflows (won : Bool) (early : Option Nat) (x : Channel) (n : Nat) (c : Chip) : Chip :=
  match x with
  | .A => (Chip.countB won .runningCascade)^[n] ((Chip.clocked won early)^[n] (c.flagged won (flagOf .A)))
  | .B => c.flagged won (flagOf .B)

section
variable {won : Bool} {early : Option Nat} {mode : ChanState} {c : Chip}

theorem Chip.countB_of_state (h : c.chanState .B = mode) :
    c.countB won mode = c.countOnce (Chip.flagged won (flagOf .B)) .B := if_pos h

theorem Chip.countB_iterate_of_other_state (h : c.chanState .B ≠ mode) (n : Nat) :
    (Chip.countB won mode)^[n] c = c :=
  Function.iterate_fixed (show c.countB won mode = c from if_neg h) n

theorem Chip.clocked_iterate_of_not_shifting (h : ¬c.Shifting) (n : Nat) : (Chip.clocked won early)^[n] c = c :=
  Function.iterate_fixed (show c.clocked won early = c from if_neg h) n

/-- The shift register after `n` underflows of channel A: its countdown, and whether they completed the transfer
(44_chip_icr_sdr_ports.md R218). -/
theorem Chip.clocked_iterate (h : c.Shifting) (n : Nat) :
    (Chip.clocked won early)^[n] c =
      { c with
        srBits := BitVec.ofNat 5 (c.srBits.toNat - min n c.srBits.toNat)
        flags := c.flags |||
          if early.getD 0 < c.srBits.toNat ∧ c.srBits.toNat - min n c.srBits.toNat ≤ early.getD 0
          then addedFlag won flagSdr else 0 } := by
  have hold := c.srBits.isLt
  induction n with
  | zero =>
    have hnone : ¬(early.getD 0 < c.srBits.toNat ∧ c.srBits.toNat - min 0 c.srBits.toNat ≤ early.getD 0) := by omega
    rw [if_neg hnone, byte_or_zero]
    simp
  | succ n ih =>
    rw [Function.iterate_succ_apply', ih]
    generalize hm : c.srBits.toNat - min n c.srBits.toNat = m
    have hle : m ≤ c.srBits.toNat := by omega
    have hnext : c.srBits.toNat - min (n + 1) c.srBits.toNat = m - 1 := by omega
    have hnat : (BitVec.ofNat 5 m).toNat = m := by
      rw [BitVec.toNat_ofNat]
      exact Nat.mod_eq_of_lt (by omega)
    rw [hnext]
    unfold Chip.clocked
    cases m with
    | zero => exact if_neg fun hshift => hshift.2 hnat
    | succ m =>
      have hdec : BitVec.ofNat 5 (m + 1) - 1 = BitVec.ofNat 5 m := by
        rw [BitVec.ofNat_add]
        exact BitVec.add_sub_cancel _ _
      rw [if_pos ⟨h.1, by rw [hnat]; exact Nat.succ_ne_zero m⟩]
      dsimp only
      rw [hnat, hdec, Nat.add_sub_cancel, BitVec.or_assoc]
      congr 2
      by_cases hlast : m = early.getD 0
      · rw [if_neg (by omega), if_pos (by omega), if_pos (by omega), byte_zero_or]
      · rw [if_neg (c := m + 1 = _) (by omega), byte_or_zero]
        exact if_congr (by omega) rfl rfl

end

/-! ### The operations that the functions describe -/

section
variable {won : Bool} {mode : ChanState} {bit : Byte} {k n e0 P : Nat} {x : Channel} {e : Cycle} {s t : State}

/-- Whether a read wins depends on the parameters and the record of the last read (44_chip_icr_sdr_ports.md R210). -/
theorem readWon_congr (hcfg : t.cfg = s.cfg) (hread : (t.chip k).lastRead = (s.chip k).lastRead) (e : Cycle) :
    readWon k e t = readWon k e s := by
  rw [readWon, hcfg, hread, readWon]

theorem readWon_setChip {c : Chip} (hk : k < s.chips.length) (hread : c.lastRead = (s.chip k).lastRead) (e : Cycle) :
    readWon k e (s.setChip k c) = readWon k e s :=
  readWon_congr (s := s) (t := s.setChip k c) rfl (by rw [State.chip_setChip_self s c hk, hread]) e

theorem Reconciling.readWon {c : Nat} {spared : Byte} (h : Reconciling k c spared s t) (e : Cycle) :
    Machine.readWon k e t = Machine.readWon k e s := readWon_congr h.only.cfg h.kept.lastRead e

theorem chip_setFlag (hk : k < s.chips.length) (hwon : readWon k e s = won) :
    (setFlag k bit e s).chip k = (s.chip k).flagged won bit := by
  cases won with
  | true => simp [setFlag_of_readWon hwon, Chip.flagged, addedFlag]
  | false => rw [chip_setFlag_of_not_readWon hk hwon]; rfl

/-- `ShiftEvents` with the two forms of the completion made one: without `SR_EARLY` the last half-bit completes the
transfer (44_chip_icr_sdr_ports.md R218). -/
theorem shiftEvents_of_pos (hold : (s.chip k).srBits.toNat ≠ 0) :
    shiftEvents k n e0 P s =
      let old := (s.chip k).srBits.toNat
      let s' := s.setChip k { s.chip k with srBits := BitVec.ofNat 5 (old - min n old) }
      if s.cfg.srEarly.getD 0 < old ∧ old - min n old ≤ s.cfg.srEarly.getD 0 then
        setFlag k flagSdr (BitVec.ofNat 32 (e0 + (old - s.cfg.srEarly.getD 0 - 1) * P)) s'
      else s' := by
  unfold shiftEvents
  dsimp only
  rw [if_neg hold]
  cases s.cfg.srEarly with
  | some t => rfl
  | none => exact if_congr (by simp only [Option.getD_none]; omega) rfl rfl

/-- The half-bits of `n` underflows, one by one (44_chip_icr_sdr_ports.md R218). -/
theorem chip_clockShift (hk : k < s.chips.length)
    (hwon : ∀ i < n, readWon k (BitVec.ofNat 32 (e0 + i * P)) s = won) :
    (clockShift k n e0 P s).chip k = (Chip.clocked won s.cfg.srEarly)^[n] (s.chip k) := by
  unfold clockShift
  by_cases hshift : (s.chip k).Shifting
  case neg =>
    rw [Chip.clocked_iterate_of_not_shifting hshift]
    split
    case isFalse => rfl
    case isTrue hcra =>
      have hzero : (s.chip k).srBits.toNat = 0 := Decidable.not_not.mp fun hne => hshift ⟨hcra, hne⟩
      unfold shiftEvents
      dsimp only
      rw [if_pos hzero]
  case pos =>
    have hcount (c : Chip) : (s.setChip k c).chip k = c := State.chip_setChip_self s c hk
    rw [if_pos hshift.1, shiftEvents_of_pos hshift.2, Chip.clocked_iterate hshift]
    dsimp only
    split
    case isFalse => rw [hcount, byte_or_zero]
    case isTrue hdone =>
      rw [chip_setFlag (won := won), hcount]
      · rfl
      · simpa using hk
      · refine (readWon_setChip hk ?_ _).trans (hwon _ ?_)
        · rfl
        · omega

/-- One count event (43_chip_timers.md R165). -/
theorem chip_countOne {underflow : State → State} {f : Chip → Chip} (hk : k < s.chips.length)
    (hu : ∀ t, t.chips.length = s.chips.length → t.cfg = s.cfg → t.chip k = (s.chip k).reload x →
      (underflow t).chip k = f (t.chip k)) :
    (countOne underflow k x s).chip k = (s.chip k).countOnce f x := by
  unfold countOne Chip.countOnce
  dsimp only
  split
  case isFalse => exact State.chip_setChip_self s _ hk
  case isTrue =>
    generalize hch : { (s.chip k).chan x with cnt := ((s.chip k).chan x).latch, toggle := !((s.chip k).chan x).toggle } = ch
    have hset : (s.setChan k x ch).chip k = (s.chip k).setChan x ch := State.chip_setChip_self s _ hk
    have hreload : (stopOneShot k x (s.setChan k x ch)).chip k = (s.chip k).reload x := by
      have hctl : ((s.chip k).setChan x ch).ctlAfter x = (s.chip k).ctlAfter x :=
        Chip.ctlAfter_congr (Chip.ctl_setChan _ x x ch)
      rw [chip_stopOneShot (by simpa [State.setChan] using hk), hset, hctl, Chip.reload, hch]
    have honly := (OnlyChip.setChan k x ch s).trans (OnlyChip.stopOneShot k x _)
    rw [hu _ honly.chips_length honly.cfg hreload, hreload]

/-- What of a chip a count event leaves alone (43_chip_timers.md R165). -/
theorem Chip.lastRead_countB (c : Chip) : (c.countB won mode).lastRead = c.lastRead := by
  unfold Chip.countB Chip.countOnce
  split
  · split
    · exact (Chip.setCtl_lastRead _ _ _).trans (Chip.setChan_lastRead _ _ _)
    · exact Chip.setChan_lastRead _ _ _
  · rfl

/-- `n` count events of channel B, one by one (43_chip_timers.md R165). -/
theorem chip_countLoop (hk : k < s.chips.length)
    (hwon : ∀ i < n, readWon k (BitVec.ofNat 32 (e0 + i * P)) s = won) :
    (countLoop (underflowEffectsB k) k .B mode P n e0 s).chip k = (Chip.countB won mode)^[n] (s.chip k) := by
  induction n generalizing e0 s with
  | zero => rfl
  | succ n ih =>
    unfold countLoop
    by_cases hmode : (s.chip k).chanState .B = mode
    case neg => rw [if_pos hmode, Chip.countB_iterate_of_other_state hmode]
    case pos =>
      have hone : (countOne (underflowEffectsB k e0) k .B s).chip k = (s.chip k).countB won mode := by
        rw [Chip.countB_of_state hmode]
        refine chip_countOne hk fun t hlen hcfg ht => chip_setFlag (by rwa [hlen]) ?_
        have hread : (t.chip k).lastRead = (s.chip k).lastRead := by
          rw [ht, Chip.reload, Chip.setCtl_lastRead, Chip.setChan_lastRead]
        rw [readWon_congr hcfg hread]
        simpa using hwon 0 (Nat.succ_pos n)
      have honly := OnlyChip.countOne (x := .B) (fun s => OnlyChip.underflowEffectsB k e0 s) s
      rw [if_neg (not_not_intro hmode), Function.iterate_succ_apply, ← hone]
      refine ih (by rwa [honly.chips_length]) fun i hi => ?_
      rw [readWon_congr honly.cfg (by rw [hone, Chip.lastRead_countB])]
      have hcycle : e0 + P + i * P = e0 + (i + 1) * P := by rw [Nat.succ_mul]; omega
      rw [hcycle]
      exact hwon (i + 1) (Nat.succ_lt_succ hi)

theorem chip_cascade (hk : k < s.chips.length)
    (hwon : ∀ i < n, readWon k (BitVec.ofNat 32 (e0 + i * P)) s = won) :
    (cascade k n e0 P s).chip k = (Chip.countB won .runningCascade)^[n] (s.chip k) := by
  unfold cascade
  split
  · exact chip_countLoop hk hwon
  · rw [Chip.countB_iterate_of_other_state ‹_›]

/-- The effects of underflows (43_chip_timers.md R164). -/
theorem chip_underflowEffects (hk : k < s.chips.length) (hn : 0 < n)
    (hwon : ∀ i < n, readWon k (BitVec.ofNat 32 (e0 + i * P)) s = won) :
    (underflowEffects k x n e0 P s).chip k = (s.chip k).afterUnderflows won s.cfg.srEarly x n := by
  have hfirst : readWon k (BitVec.ofNat 32 e0) s = won := by simpa using hwon 0 hn
  cases x with
  | B => exact chip_setFlag hk hfirst
  | A =>
    have hflag : Reconciling k _ 0 s (setFlag k (flagOf .A) (BitVec.ofNat 32 e0) s) :=
      (FlagWork.setFlag BitVec.and_zero (Nat.le_refl _)).toReconciling
    have hshift : Reconciling k _ 0 _ (clockShift k n e0 P (setFlag k (flagOf .A) (BitVec.ofNat 32 e0) s)) :=
      (FlagWork.clockShift BitVec.and_zero (Nat.le_refl _)).toReconciling
    have hk₁ : k < (setFlag k (flagOf .A) (BitVec.ofNat 32 e0) s).chips.length := by rwa [hflag.only.chips_length]
    have hk₂ : k < (clockShift k n e0 P (setFlag k (flagOf .A) (BitVec.ofNat 32 e0) s)).chips.length := by
      rwa [hshift.only.chips_length]
    unfold underflowEffects underflowEffectsA
    rw [chip_cascade hk₂ fun i hi => by rw [hshift.readWon, hflag.readWon, hwon i hi],
      chip_clockShift hk₁ fun i hi => by rw [hflag.readWon, hwon i hi], chip_setFlag hk hfirst, hflag.only.cfg]
    rfl

end

end Sys2Proof.Machine
end

section
/-! Work on a chip at one cycle `e` (43_chip_timers.md R201; 44_chip_icr_sdr_ports.md R214): however many flags it sets, it
comes to the chip replaced and its line updated once, `Followed`. -/

namespace Sys2Proof.Machine

section
variable {k : Nat} {e : Cycle} {s t u : State}

/-- A source is set from the sources and the parameters alone (42_interrupt_aggregator.md R143). -/
theorem aggSet_setChip (n : Nat) (b : Bool) (e : Cycle) (s : State) (k : Nat) (c : Chip) :
    aggSet n b e (s.setChip k c) = (aggSet n b e s).setChip k c := by
  have hrises : (s.setChip k c).rises n b = s.rises n b := rfl
  have hline : (s.setChip k c).lineOf n = s.lineOf n := rfl
  unfold aggSet
  rw [hrises, hline]
  cases s.rises n b
  · rfl
  · cases s.lineOf n <;> rfl

theorem updateLine_setChip_eq {c : Chip} (hk : k < s.chips.length) :
    updateLine k e (s.setChip k c) = (aggSet k c.summary e s).setChip k c := by
  rw [updateLine, State.chip_setChip_self s c hk, aggSet_setChip]

/-- A line that is updated twice at one cycle, the summary only rising, is updated once (42_interrupt_aggregator.md
R143). -/
theorem updateLine_setChip_updateLine {c d : Chip} (ht : Tracked k s) (hc : (s.chip k).summary = true → c.summary = true)
    (hd : c.summary = true → d.summary = true) :
    updateLine k e ((updateLine k e (s.setChip k c)).setChip k d) = updateLine k e (s.setChip k d) := by
  by_cases hsame : c.summary = (s.chip k).summary
  case pos => rw [updateLine_setChip_of_summary ht hsame, State.setChip_setChip]
  case neg =>
    have hrise : c.summary = true := by
      cases hsum : (s.chip k).summary with
      | true => exact hc hsum
      | false => simpa [hsum] using hsame
    have htracked : Tracked k (updateLine k e (s.setChip k c)) :=
      tracked_updateLine e (by simpa using ht.chip_lt) ht.src_lt
    have hchip : ((updateLine k e (s.setChip k c)).chip k).summary = c.summary := by
      rw [State.chip_updateLine, State.chip_setChip_self s c ht.chip_lt]
    rw [updateLine_setChip_of_summary htracked (by rw [hchip, hrise, hd hrise]), updateLine_setChip_eq ht.chip_lt,
      State.setChip_setChip, updateLine_setChip_eq ht.chip_lt, hrise, hd hrise]

/-- From `s` to `t` chip `k` is replaced, its flags growing, and its line updated at cycle `e`. -/
structure Followed (k : Nat) (e : Cycle) (s t : State) : Prop where
  follows : t = updateLine k e (s.setChip k (t.chip k))
  mask : (t.chip k).mask = (s.chip k).mask
  flags_grow : (t.chip k).flags &&& (s.chip k).flags = (s.chip k).flags
  lastRead : (t.chip k).lastRead = (s.chip k).lastRead

theorem Followed.tracked (h : Followed k e s t) (ht : Tracked k s) : Tracked k t := by
  rw [h.follows]
  exact tracked_updateLine e (by simpa using ht.chip_lt) ht.src_lt

theorem Followed.summary_mono (h : Followed k e s t) : (s.chip k).summary = true → (t.chip k).summary = true :=
  Chip.summary_mono h.mask h.flags_grow

theorem Followed.trans (ht : Tracked k s) (h : Followed k e s t) (g : Followed k e t u) : Followed k e s u where
  follows := by
    have hu := g.follows
    rw [h.follows, updateLine_setChip_updateLine ht h.summary_mono g.summary_mono] at hu
    exact hu
  mask := g.mask.trans h.mask
  flags_grow := by rw [← h.flags_grow, ← BitVec.and_assoc, g.flags_grow]
  lastRead := g.lastRead.trans h.lastRead

/-- A change of the chip that no flag is among. -/
theorem Followed.setChip {c : Chip} (ht : Tracked k s) (hmask : c.mask = (s.chip k).mask)
    (hflags : c.flags = (s.chip k).flags) (hread : c.lastRead = (s.chip k).lastRead) :
    Followed k e s (s.setChip k c) := by
  have hchip : (s.setChip k c).chip k = c := State.chip_setChip_self s c ht.chip_lt
  refine ⟨?_, by rw [hchip, hmask], by rw [hchip, hflags, BitVec.and_self], by rw [hchip, hread]⟩
  rw [hchip, updateLine_setChip_of_summary ht (by rw [Chip.summary, hflags, hmask, Chip.summary])]

theorem Followed.refl (ht : Tracked k s) : Followed k e s s := by
  have h : Followed k e s (s.setChip k (s.chip k)) := Followed.setChip ht rfl rfl rfl
  rwa [State.setChip_chip_self s ht.chip_lt] at h

theorem Followed.setChan {x : Channel} {ch : Chan} (ht : Tracked k s) : Followed k e s (s.setChan k x ch) :=
  Followed.setChip ht (Chip.setChan_mask _ x ch) (Chip.setChan_flags _ x ch) (Chip.setChan_lastRead _ x ch)

theorem Followed.setFlag {bit : Byte} (ht : Tracked k s) : Followed k e s (setFlag k bit e s) := by
  cases hwon : readWon k e s with
  | true =>
    rw [setFlag_of_readWon hwon]
    exact Followed.refl ht
  | false =>
    have hchip := chip_setFlag_of_not_readWon (bit := bit) ht.chip_lt hwon
    refine ⟨?_, by rw [hchip], by rw [hchip]; exact or_and_self _ _, by rw [hchip]⟩
    rw [hchip, setFlag_of_not_readWon hwon]

theorem Followed.stopOneShot {x : Channel} (ht : Tracked k s) : Followed k e s (stopOneShot k x s) := by
  unfold Machine.stopOneShot
  split
  · exact Followed.setChip ht (Chip.setCtl_mask _ x _) (Chip.setCtl_flags _ x _) (Chip.setCtl_lastRead _ x _)
  · exact Followed.refl ht

theorem Followed.countOne {x : Channel} {underflow : State → State} (ht : Tracked k s)
    (hu : ∀ t, Tracked k t → Followed k e t (underflow t)) : Followed k e s (countOne underflow k x s) := by
  unfold Machine.countOne
  dsimp only
  split
  · have hreload : Followed k e s (s.setChan k x { (s.chip k).chan x with
        cnt := ((s.chip k).chan x).latch, toggle := !((s.chip k).chan x).toggle }) := Followed.setChan ht
    have ht₁ := hreload.tracked ht
    have hstop := Followed.stopOneShot (e := e) (x := x) ht₁
    exact Followed.trans ht hreload (Followed.trans ht₁ hstop (hu _ (hstop.tracked ht₁)))
  · exact Followed.setChan ht

/-! ### The effects of one underflow -/

variable {e0 P : Nat}

theorem Followed.clockShift (ht : Tracked k s) : Followed k (BitVec.ofNat 32 e0) s (clockShift k 1 e0 P s) := by
  unfold Machine.clockShift
  by_cases hcra : (s.chip k).cra.getLsbD 6 = true
  case neg =>
    rw [if_neg hcra]
    exact Followed.refl ht
  case pos =>
    rw [if_pos hcra]
    by_cases hold : (s.chip k).srBits.toNat = 0
    case pos =>
      unfold shiftEvents
      dsimp only
      rw [if_pos hold]
      exact Followed.refl ht
    case neg =>
      rw [shiftEvents_of_pos hold]
      dsimp only
      have hcount (sr : BitVec 5) : Followed k (BitVec.ofNat 32 e0) s (s.setChip k { s.chip k with srBits := sr }) :=
        Followed.setChip ht rfl rfl rfl
      split
      case isFalse => exact hcount _
      case isTrue hdone =>
        have hlast : (s.chip k).srBits.toNat - s.cfg.srEarly.getD 0 - 1 = 0 := by omega
        rw [hlast, Nat.zero_mul, Nat.add_zero]
        exact Followed.trans ht (hcount _) (Followed.setFlag ((hcount _).tracked ht))

theorem Followed.cascade (ht : Tracked k s) : Followed k (BitVec.ofNat 32 e0) s (cascade k 1 e0 P s) := by
  unfold Machine.cascade countLoop
  split
  case isFalse => exact Followed.refl ht
  case isTrue hcasc =>
    rw [if_neg (not_not_intro hcasc)]
    exact Followed.countOne ht fun t ht => Followed.setFlag ht

theorem Followed.underflowEffects (ht : Tracked k s) (x : Channel) :
    Followed k (BitVec.ofNat 32 e0) s (underflowEffects k x 1 e0 P s) := by
  cases x with
  | B => exact Followed.setFlag ht
  | A =>
    have hflag : Followed k (BitVec.ofNat 32 e0) s (Machine.setFlag k (flagOf .A) (BitVec.ofNat 32 e0) s) :=
      Followed.setFlag ht
    have ht₁ := hflag.tracked ht
    have hshift := Followed.clockShift (e0 := e0) (P := P) ht₁
    exact Followed.trans ht (Followed.trans ht hflag hshift) (Followed.cascade (hshift.tracked ht₁))

/-! ### A pulse -/

theorem Followed.pulseChannel (ht : Tracked k s) (x : Channel) : Followed k s.clk s (pulseChannel k x s) := by
  unfold Machine.pulseChannel countEvents countLoop
  split
  case isFalse => exact Followed.refl ht
  case isTrue hext =>
    have hclk : BitVec.ofNat 32 s.clk.toNat = s.clk := by simp
    rw [if_neg (not_not_intro hext), ← hclk]
    refine Followed.countOne ht fun t ht => ?_
    have h := Followed.underflowEffects (e0 := s.clk.toNat) (P := 1) ht x
    simpa using h

end

/-- A pulse's part for channel `x`: one count event if it counts external pulses (43_chip_timers.md R201). -/
def Chip.pulseOnce (won : Bool) (early : Option Nat) (x : Channel) (c : Chip) : Chip :=
  if c.chanState x = .runningExt then c.countOnce (Chip.afterUnderflows won early x 1) x else c

theorem chip_pulseChannel {k : Nat} {won : Bool} {s : State} (hk : k < s.chips.length) (hwon : readWon k s.clk s = won)
    (x : Channel) : (pulseChannel k x s).chip k = (s.chip k).pulseOnce won s.cfg.srEarly x := by
  unfold pulseChannel countEvents countLoop Chip.pulseOnce
  split
  case isFalse => rfl
  case isTrue hext =>
    rw [if_neg (not_not_intro hext)]
    refine chip_countOne hk fun t hlen hcfg ht => ?_
    rw [chip_underflowEffects (won := won) (by rwa [hlen]) Nat.one_pos, hcfg]
    intro i hi
    have hread : (t.chip k).lastRead = (s.chip k).lastRead := by
      rw [ht, Chip.reload, Chip.setCtl_lastRead, Chip.setChan_lastRead]
    have hcycle : BitVec.ofNat 32 (s.clk.toNat + i * 1) = s.clk := by
      rw [Nat.lt_one_iff.mp hi]
      simp
    rw [hcycle, readWon_congr hcfg hread, hwon]

/-- The whole pulse replaces the chip and updates its line (43_chip_timers.md R201). -/
theorem pulseChannels_eq {k : Nat} {s : State} (ht : Tracked k s) :
    pulseChannel k .B (pulseChannel k .A s) =
      updateLine k s.clk (s.setChip k
        (((s.chip k).pulseOnce (readWon k s.clk s) s.cfg.srEarly .A).pulseOnce (readWon k s.clk s) s.cfg.srEarly .B)) := by
  have honly := OnlyChip.pulseChannel k .A s
  have hA := Followed.pulseChannel ht .A
  have hB := Followed.pulseChannel (hA.tracked ht) .B
  rw [honly.clk] at hB
  have hk : k < (pulseChannel k .A s).chips.length := by rw [honly.chips_length]; exact ht.chip_lt
  have hchip : (pulseChannel k .B (pulseChannel k .A s)).chip k =
      ((s.chip k).pulseOnce (readWon k s.clk s) s.cfg.srEarly .A).pulseOnce (readWon k s.clk s) s.cfg.srEarly .B := by
    have hwon : readWon k (pulseChannel k .A s).clk (pulseChannel k .A s) = readWon k s.clk s := by
      rw [readWon_congr honly.cfg hA.lastRead, honly.clk]
    rw [chip_pulseChannel hk hwon, honly.cfg, chip_pulseChannel ht.chip_lt rfl .A]
  rw [← hchip]
  exact (Followed.trans ht hA hB).follows

end Sys2Proof.Machine
end

section
/-! An external pulse (43_chip_timers.md R201): the two parts of a pulse, for channel A and for channel B, come to
`Chip.pulsed`, and the line follows the flags once. -/

namespace Sys2Proof.Machine

section
variable {won : Bool} {early : Option Nat} {c : Chip}

/-! ### A count event -/

theorem countDown_eq_zero_iff (n : Count) : countDown n = 0 ↔ n.toNat ≤ 1 := by
  unfold countDown
  split
  case isTrue hzero => simp [hzero]
  case isFalse hne =>
    constructor
    · intro h
      bv_omega
    · intro h
      bv_omega

theorem countDown_of_gt {n : Count} (h : 1 < n.toNat) : countDown n = n - 1 :=
  if_neg fun hzero => by rw [hzero] at h; exact absurd h (by decide)

theorem Chip.countOnce_of_le {underflow : Chip → Chip} {x : Channel} (h : (c.chan x).cnt.toNat ≤ 1) :
    c.countOnce underflow x = underflow (c.reload x) := if_pos ((countDown_eq_zero_iff _).mpr h)

theorem Chip.countOnce_of_gt {underflow : Chip → Chip} {x : Channel} (h : 1 < (c.chan x).cnt.toNat) :
    c.countOnce underflow x = c.setChan x { c.chan x with cnt := (c.chan x).cnt - 1 } := by
  have hne : countDown (c.chan x).cnt ≠ 0 := fun hzero => absurd ((countDown_eq_zero_iff _).mp hzero) (Nat.not_le.mpr h)
  rw [Chip.countOnce, if_neg hne, countDown_of_gt h]

theorem Chip.ctlAfter_getLsbD {x : Channel} {i : Nat} (hi : (0xFE : Byte).getLsbD i = true) :
    (c.ctlAfter x).getLsbD i = (c.ctl x).getLsbD i := by
  unfold Chip.ctlAfter clearStart
  split
  · rw [BitVec.getLsbD_and, hi, Bool.and_true]
  · rfl

theorem Chip.chanState_ctlAfter (x : Channel) : ctlState x (c.ctlAfter x) = .stopped ∨ c.ctlAfter x = c.ctl x := by
  unfold Chip.ctlAfter
  split
  · exact .inl (ctlState_clearStart x _)
  · exact .inr rfl

/-- After its count event a channel is stopped or as it was (43_chip_timers.md R165). -/
theorem Chip.countOnce_state {bit : Byte} {x : Channel} :
    (c.countOnce (Chip.flagged won bit) x).chanState x = .stopped ∨
      (c.countOnce (Chip.flagged won bit) x).chanState x = c.chanState x := by
  by_cases hle : (c.chan x).cnt.toNat ≤ 1
  · have hctl : (c.countOnce (Chip.flagged won bit) x).ctl x = c.ctlAfter x := by
      rw [Chip.countOnce_of_le hle]
      cases x <;> rfl
    unfold Chip.chanState
    rw [hctl]
    exact c.chanState_ctlAfter x |>.imp id (congrArg _)
  · rw [Chip.countOnce_of_gt (Nat.not_le.mp hle)]
    exact .inr (Chip.chanState_congr (Chip.ctl_setChan _ _ _ _))

/-! ### The part of channel A, without its cascade -/

/-- A pulse's part for channel A but for the cascade (43_chip_timers.md R164, R201). -/
def Chip.pulseA (won : Bool) (early : Option Nat) (c : Chip) : Chip :=
  if c.chanState .A = .runningExt then c.countOnce (fun c => (c.flagged won (flagOf .A)).clocked won early) .A else c

/-- What `Chip.pulsed` says of channel A, its flag and the shift register's. -/
theorem Chip.pulseA_eq :
    c.pulseA won early = { c with
      chanA := c.pulsedChan .A
      cra := c.pulsedCtl .A
      srBits := if c.pulseShifts then c.srBits - 1 else c.srBits
      flags := (c.flags ||| if c.pulseUnderflows .A then addedFlag won (flagOf .A) else 0) |||
        if c.pulseCompletes early then addedFlag won flagSdr else 0 } := by
  unfold Chip.pulseA Chip.pulsedChan Chip.pulsedCtl Chip.pulseCompletes Chip.pulseShifts Chip.pulseUnderflows
  by_cases hext : c.chanState .A = .runningExt
  case neg =>
    have hcounts : c.pulseCounts .A = false := decide_eq_false hext
    rw [if_neg hext, hcounts]
    simp [Chip.chan, Chip.ctl]
  case pos =>
    have hcounts : c.pulseCounts .A = true := decide_eq_true hext
    rw [if_pos hext, hcounts]
    by_cases hle : (c.chan .A).cnt.toNat ≤ 1
    case neg =>
      rw [Chip.countOnce_of_gt (Nat.not_le.mp hle), decide_eq_false hle]
      simp [Chip.chan, Chip.ctl, Chip.setChan]
    case pos =>
      have hcra : ((c.reload .A).flagged won (flagOf .A)).cra.getLsbD 6 = c.cra.getLsbD 6 :=
        Chip.ctlAfter_getLsbD (by decide)
      have hshifting : ((c.reload .A).flagged won (flagOf .A)).Shifting ↔ c.Shifting := by
        rw [Chip.Shifting, hcra]
        rfl
      rw [Chip.countOnce_of_le hle, decide_eq_true hle]
      dsimp only
      by_cases hshift : c.Shifting
      case neg =>
        have hnone : (true && true && c.cra.getLsbD 6 && decide (c.srBits.toNat ≠ 0)) = false := by
          simpa using hshift
        rw [Chip.clocked, if_neg (hshifting.not.mpr hshift), hnone]
        simp [Chip.flagged, Chip.reload, Chip.chan, Chip.ctl, Chip.setChan, Chip.setCtl, Chip.ctlAfter, Chip.oneShot,
          clearStart]
      case pos =>
        obtain ⟨hbit, hbits⟩ := hshift
        rw [Chip.clocked, if_pos (hshifting.mpr ⟨hbit, hbits⟩), hbit, decide_eq_true hbits]
        simp [Chip.flagged, Chip.reload, Chip.chan, Chip.ctl, Chip.setChan, Chip.setCtl, Chip.ctlAfter, Chip.oneShot,
          clearStart]

theorem Chip.pulseA_crb : (c.pulseA won early).crb = c.crb := by rw [Chip.pulseA_eq]

/-- A count event of channel B, whose underflow has no consequence beyond its flag (43_chip_timers.md R164, R165). -/
theorem Chip.countOnceB_eq :
    c.countOnce (Chip.flagged won (flagOf .B)) .B = { c with
      chanB := if c.chanB.cnt.toNat ≤ 1 then { c.chanB with cnt := c.chanB.latch, toggle := !c.chanB.toggle }
        else { c.chanB with cnt := c.chanB.cnt - 1 }
      crb := if c.chanB.cnt.toNat ≤ 1 then c.ctlAfter .B else c.crb
      flags := c.flags ||| if c.chanB.cnt.toNat ≤ 1 then addedFlag won (flagOf .B) else 0 } := by
  by_cases hle : (c.chan .B).cnt.toNat ≤ 1
  · rw [Chip.countOnce_of_le hle]
    change c.chanB.cnt.toNat ≤ 1 at hle
    rw [if_pos hle, if_pos hle, if_pos hle]
    rfl
  · rw [Chip.countOnce_of_gt (Nat.not_le.mp hle)]
    change ¬c.chanB.cnt.toNat ≤ 1 at hle
    rw [if_neg hle, if_neg hle, if_neg hle, byte_or_zero]
    rfl

/-! ### The whole pulse -/

/-- A cascaded channel B counts the underflow of channel A that the pulse causes (43_chip_timers.md R164). -/
theorem Chip.pulseOnceA_eq :
    c.pulseOnce won early .A =
      if c.pulseUnderflows .A then (c.pulseA won early).countB won .runningCascade else c.pulseA won early := by
  unfold Chip.pulseOnce Chip.pulseA Chip.pulseUnderflows
  by_cases hext : c.chanState .A = .runningExt
  case neg =>
    have hcounts : c.pulseCounts .A = false := decide_eq_false hext
    rw [if_neg hext, if_neg hext, hcounts]
    rfl
  case pos =>
    have hcounts : c.pulseCounts .A = true := decide_eq_true hext
    rw [if_pos hext, if_pos hext, hcounts]
    by_cases hle : (c.chan .A).cnt.toNat ≤ 1
    · rw [Chip.countOnce_of_le hle, Chip.countOnce_of_le hle, decide_eq_true hle]
      rfl
    · rw [Chip.countOnce_of_gt (Nat.not_le.mp hle), Chip.countOnce_of_gt (Nat.not_le.mp hle), decide_eq_false hle]
      rfl

theorem Chip.pulseOnceB_eq (d : Chip) :
    d.pulseOnce won early .B = if d.chanState .B = .runningExt then d.countOnce (Chip.flagged won (flagOf .B)) .B else d :=
  rfl

/-- Channel B counts at most once: a pulse that counts cycles of it, or an underflow of channel A, never both. -/
theorem Chip.pulse_eq_countOnceB :
    (c.pulseOnce won early .A).pulseOnce won early .B =
      if c.pulseCounts .B then (c.pulseA won early).countOnce (Chip.flagged won (flagOf .B)) .B
      else c.pulseA won early := by
  have hstate : (c.pulseA won early).chanState .B = c.chanState .B := Chip.chanState_congr Chip.pulseA_crb
  have hcounts : c.pulseCounts .B = (decide (c.chanState .B = .runningExt) ||
      (c.pulseUnderflows .A && decide (c.chanState .B = .runningCascade))) := rfl
  rw [Chip.pulseOnceA_eq, hcounts]
  by_cases hcasc : c.pulseUnderflows .A = true ∧ c.chanState .B = .runningCascade
  case pos =>
    obtain ⟨hunder, hB⟩ := hcasc
    have hnot : ((c.pulseA won early).countOnce (Chip.flagged won (flagOf .B)) .B).chanState .B ≠ .runningExt := by
      rcases Chip.countOnce_state (won := won) (bit := flagOf .B) (c := c.pulseA won early) (x := .B) with h | h
      · rw [h]; decide
      · rw [h, hstate, hB]; decide
    rw [hunder, if_pos rfl, Chip.countB_of_state (hstate.trans hB), Chip.pulseOnceB_eq, if_neg hnot, hB]
    rfl
  case neg =>
    have hA : (if c.pulseUnderflows .A then (c.pulseA won early).countB won .runningCascade else c.pulseA won early) =
        c.pulseA won early := by
      split
      case isTrue hunder => exact if_neg fun h => hcasc ⟨hunder, hstate.symm.trans h⟩
      case isFalse => rfl
    have hnone : (c.pulseUnderflows .A && decide (c.chanState .B = .runningCascade)) = false := by simpa using hcasc
    rw [hA, Chip.pulseOnceB_eq, hstate, hnone, Bool.or_false]
    exact if_congr (decide_eq_true_iff).symm rfl rfl

theorem Chip.or_pulseFlags (f : Byte) :
    f ||| (if won then 0 else c.pulseFlags early) =
      ((f ||| if c.pulseUnderflows .A then addedFlag won (flagOf .A) else 0) |||
        if c.pulseCompletes early then addedFlag won flagSdr else 0) |||
        if c.pulseUnderflows .B then addedFlag won (flagOf .B) else 0 := by
  cases won with
  | true => simp [addedFlag]
  | false =>
    change f ||| ((_ ||| _) ||| _) = ((f ||| _) ||| _) ||| _
    rw [BitVec.or_assoc f, BitVec.or_assoc f, BitVec.or_assoc, BitVec.or_assoc,
      BitVec.or_comm (if c.pulseUnderflows .B then 0x02 else 0)]
    rfl

/-- The two parts of a pulse come to `Chip.pulsed` (43_chip_timers.md R201). -/
theorem Chip.pulse_eq_pulsed :
    (c.pulseOnce won early .A).pulseOnce won early .B = c.pulsed (if won then 0 else c.pulseFlags early) := by
  have hunder : c.pulseUnderflows .B = (c.pulseCounts .B && decide (c.chanB.cnt.toNat ≤ 1)) := rfl
  rw [Chip.pulse_eq_countOnceB, Chip.countOnceB_eq, Chip.pulseA_eq, Chip.pulsed, Chip.or_pulseFlags, hunder]
  cases hcounts : c.pulseCounts .B with
  | false => simp [Chip.pulsedChan, Chip.pulsedCtl, hunder, hcounts, Chip.chan, Chip.ctl]
  | true =>
    by_cases hle : c.chanB.cnt.toNat ≤ 1
    · simp [Chip.pulsedChan, Chip.pulsedCtl, hunder, hcounts, hle, Chip.chan, Chip.ctl, Chip.ctlAfter, Chip.oneShot,
        clearStart]
    · simp [Chip.pulsedChan, Chip.pulsedCtl, hunder, hcounts, hle, Chip.chan, Chip.ctl]

end

/-! ### The operation -/

/-- A chip replaced and its line updated: the source is set, a line that rises is stamped (42_interrupt_aggregator.md
R143; 44_chip_icr_sdr_ports.md R214). -/
theorem updateLine_setChip_eq_ite {k : Nat} {e : Cycle} {c : Chip} {s : State} (hk : k < s.chips.length) :
    updateLine k e (s.setChip k c) =
      let set : State :=
        { s with chips := s.chips.set k c, src := s.src.set k (decide (c.flags &&& c.mask &&& 0x0F ≠ 0)) }
      if !s.level (s.lineOf k) && set.level (s.lineOf k) then set.setLineClk (s.lineOf k) e else set := by
  rw [updateLine, State.chip_setChip_self s c hk]
  rfl

/-- Settles O48: the pulse is the chip replaced and its line updated once (`pulseChannels_eq`), and the chip is
`Chip.pulsed` (`Chip.pulse_eq_pulsed`). -/
theorem extPulseCounts : Obligations.ExtPulseCounts := by
  unfold Obligations.ExtPulseCounts
  intro s k hready hk
  obtain ⟨t, h⟩ := opened_of_ready hready hk
  refine ⟨t, h.accessed, ?_⟩
  have hwon : readWon k t.clk t = (s.cfg.readWins.getD k false && decide ((t.chip k).lastRead = some s.clk)) := by
    rw [readWon, h.cfg, h.clk]
  have hline : t.lineOf k = s.lineOf k := by rw [State.lineOf, h.cfg, State.lineOf]
  have hexec : exec (.extPulse k) s = .next ((pulseChannel k .B (pulseChannel k .A t)).answer .nothing) :=
    h.opens.perform_writeChip fun s => pulseChannel k .B (pulseChannel k .A s)
  have hpulse := pulseChannels_eq (h.ready.inv.tracked (h.nchip_lt hk))
  rw [hwon, h.cfg, h.clk, Chip.pulse_eq_pulsed, updateLine_setChip_eq_ite (h.chip_lt hk), hline] at hpulse
  rw [hexec, hpulse]

end Sys2Proof.Machine
end

section
/-! Reconciliation and dispatch keep the invariant without room below `NEVER` too (43_chip_timers.md R162): where a cycle
value does not fit they fault, and where they do not fault every one fits. -/

namespace Sys2Proof.Machine

section
variable {k : Nat} {x : Channel} {c : Cycle} {s t : State}

/-! ### A chip's invariant from its parts -/

theorem ChanInv.of_running (hrun : (s.chip k).chanState x = .running) (hafter : (s.chip k).rc < ((s.chip k).chan x).u)
    (harmed : s.alarm (slotOf k x) = ⟨true, ((s.chip k).chan x).u⟩)
    (hwindow : ((s.chip k).chan x).u.toNat ≤ (s.chip k).rc.toNat + ((s.chip k).chan x).cnt.toNat + 2) :
    ChanInv s k x :=
  ⟨fun _ => hafter, fun _ => harmed, fun _ => hwindow, fun hidle => absurd hrun hidle, fun hidle => absurd hrun hidle⟩

theorem ChanInv.of_idle (hidle : (s.chip k).chanState x ≠ .running) (hnever : ((s.chip k).chan x).u = never)
    (hdisarmed : s.alarm (slotOf k x) = ⟨false, never⟩) : ChanInv s k x :=
  ⟨fun hrun => absurd hrun hidle, fun hrun => absurd hrun hidle, fun hrun => absurd hrun hidle, fun _ => hnever,
    fun _ => hdisarmed⟩

theorem ChipInv.of_sound (hsound : (s.chip k).Sound) (hchan : ∀ x, ChanInv s k x) (hrc : (s.chip k).rc ≤ s.clk)
    (hread : ∀ r ∈ (s.chip k).lastRead, r ≤ (s.chip k).rc) (hsource : s.source k = (s.chip k).summary)
    (htod : (s.alarm (todSlot k)).armed = true) : ChipInv s k where
  chan := hchan
  rc_le := hrc
  lastRead_le := hread
  source_eq := hsource
  srBits_le := hsound.srBits_le
  tod_armed := htod
  mask_low := hsound.mask_low
  flags_low := hsound.flags_low
  cra_strobe := hsound.cra_strobe
  crb_strobe := hsound.crb_strobe
  tod_masked := hsound.tod_masked
  todAlarm_masked := hsound.todAlarm_masked
  todLatch_masked := hsound.todLatch_masked

/-! ### A reconciliation that succeeds -/

/-- Where a reconciliation succeeds the next underflow of a due channel fits (43_chip_timers.md R163). -/
theorem fits_of_updateTo (hk : k < s.chips.length) (hdue : (s.chip k).UnderflowDue x c) (h : updateTo k c s = .ok t) :
    (s.chip k).oneShot x = true ∨ (s.chip k).rescheduled x c < neverNat := by
  obtain ⟨u, hu, hfits, -⟩ := updateTo_flagUnderflow hk hdue h
  have hresched : (u.chip k).rescheduled x c = (s.chip k).rescheduled x c := by
    rw [Chip.rescheduled, Chip.period, hu.chan, Chip.underflowsTo_congr hu.chan hu.ctl]
    rfl
  rwa [Chip.oneShot_congr hu.ctl, hresched] at hfits

theorem chanInv_updateTo_rescheduled (hk : k < s.chips.length) (hslot : slotOf k x < s.alarms.length)
    (hdue : (s.chip k).UnderflowDue x c) (hshot : (s.chip k).oneShot x = false) (h : updateTo k c s = .ok t) :
    ChanInv t k x := by
  obtain ⟨hchan, hctl, halarm⟩ := updateTo_due hk hslot hdue h
  have hfits := (fits_of_updateTo hk hdue h).resolve_left (by simp [hshot])
  have hnat : ((s.chip k).uAfter x c).toNat = (s.chip k).rescheduled x c := by
    rw [Chip.uAfter, hshot]
    exact toNat_ofNat_cycle hfits
  obtain ⟨hafter, hwithin⟩ := Chip.rescheduled_bounds hdue hshot
  rw [← hnat] at hafter hwithin
  have hu : ((t.chip k).chan x).u = (s.chip k).uAfter x c := by rw [hchan]; rfl
  have hcnt : ((t.chip k).chan x).cnt.toNat =
      min ((s.chip k).chan x).latch.toNat (((s.chip k).uAfter x c).toNat - c.toNat) := by
    rw [hchan, hshot]
    exact toNat_ofNat_min_count _ _
  apply ChanInv.of_running
  · rw [Chip.chanState, hctl, Chip.ctlAfter, hshot]
    exact hdue.1
  · rw [rc_updateTo hk h, hu]
    exact BitVec.lt_def.mpr hafter
  · rw [halarm, hu, Chip.slotAfter, hshot]
    rfl
  · rw [rc_updateTo hk h, hu, hcnt]
    unfold Chip.period at hwithin
    omega

/-- A reconciliation keeps the invariant of each channel (43_chip_timers.md R162). -/
theorem ChanInv.updateTo (hinv : ChanInv s k x) (hk : k < s.chips.length) (hslot : slotOf k x < s.alarms.length)
    (h : updateTo k c s = .ok t) : ChanInv t k x := by
  by_cases hcasc : (s.chip k).Cascaded x
  case pos =>
    obtain ⟨rfl, hstate⟩ := hcasc
    obtain ⟨hidle', hu, halarm⟩ := updateTo_cascaded hk hstate h
    have hidle : (s.chip k).chanState .B ≠ .running := by rw [hstate]; decide
    exact ChanInv.of_idle hidle' (hu.trans (hinv.idle_never hidle)) (halarm.trans (hinv.idle_disarmed hidle))
  case neg =>
    by_cases hdue : (s.chip k).UnderflowDue x c
    case neg => exact chanInv_updateTo_not_due hk hinv hcasc hdue h
    case pos =>
      cases hshot : (s.chip k).oneShot x with
      | true => exact chanInv_updateTo_oneShot hk hslot hdue hshot h
      | false => exact chanInv_updateTo_rescheduled hk hslot hdue hshot h

/-- A reconciliation stamps no line after its own cycle (43_chip_timers.md R164, R166). -/
theorem Reconciling.updateTo_within {d : Cycle} (hc : c ≤ d) (h : Machine.updateTo k c s = .ok t) :
    Reconciling k d.toNat 0xF4 s t := by
  have hcatch {x : Channel} {s t : State} (h : Machine.chanCatchUp k x c s = .ok t) : Reconciling k d.toNat 0xF4 s t := by
    rcases chanCatchUp_cases h with ⟨-, rfl⟩ | ⟨hdue, hfits, rfl⟩
    · exact Reconciling.refl k d.toNat _ _
    · have hstop : Reconciling k d.toNat 0xF4 s (Machine.stopOneShot k x s) := Reconciling.stopOneShot
      have hreload : Reconciling k d.toNat 0xF4 (Machine.stopOneShot k x s)
          ((Machine.stopOneShot k x s).setChan k x ((s.chip k).reloaded x c)) :=
        Reconciling.setChan x (by rw [chan_stopOneShot]; rfl)
      exact ((hstop.trans hreload).trans (Reconciling.setAlarm x (Chip.slotAfter_sound hfits))).trans
        (CascadeWork.underflowEffects (Nat.le_trans (Chip.lastUnderflow_le hdue) hc)).toReconciling
  obtain ⟨-, s₁, s₂, hA, hB, rfl⟩ := updateTo_eq_ok.mp h
  exact ((hcatch hA).trans (hcatch hB)).trans (Reconciling.storeLive c)

theorem sound_updateTo (hchip : ChipInv s k) (h : updateTo k c s = .ok t) : (t.chip k).Sound := by
  have hwork := Reconciling.updateTo h
  exact {
    srBits_le := Nat.le_trans hwork.srBits_le hchip.srBits_le
    mask_low := by rw [hwork.kept.mask]; exact hchip.mask_low
    flags_low := (and_eq_of_and_eq hwork.flags_spared rfl).trans hchip.flags_low
    cra_strobe := (and_eq_of_and_eq hwork.kept.cra rfl).trans hchip.cra_strobe
    crb_strobe := (and_eq_of_and_eq hwork.kept.crb rfl).trans hchip.crb_strobe
    tod_masked := by rw [hwork.tod]; exact hchip.tod_masked
    todAlarm_masked := by rw [hwork.kept.todAlarm]; exact hchip.todAlarm_masked
    todLatch_masked := by rw [hwork.kept.todLatch]; exact hchip.todLatch_masked }

/-- A reconciliation at a cycle not after `clk` keeps the invariant (43_chip_timers.md R162, R166). -/
theorem State.Inv.updateTo (hinv : s.Inv) (hk : k < s.cfg.nchip) (hc : c ≤ s.clk) (h : updateTo k c s = .ok t) :
    t.Inv := by
  have hwork := Reconciling.updateTo_within hc h
  have hrc := rc_updateTo (hinv.chip_lt hk) h
  have hchip := hinv.chip k hk
  have hpast : (s.chip k).rc ≤ c := (updateTo_eq_ok.mp h).1
  refine hwork.only.inv hinv (hwork.alarmsSound hinv.alarmsSound) (fun l => ?_) ?_
  · rw [hwork.only.clk]
    exact hwork.stamp_le l (hinv.lineClk_le l)
  · refine ChipInv.of_sound (sound_updateTo hchip h)
      (fun x => (hchip.chan x).updateTo (hinv.chip_lt hk) (hinv.slotOf_lt hk x) h) ?_ (fun r hr => ?_)
      (hwork.tracked (hinv.tracked hk)).source_eq ?_
    · rw [hrc, hwork.only.clk]
      exact hc
    · rw [hwork.kept.lastRead] at hr
      rw [hrc]
      exact BitVec.le_trans (hchip.lastRead_le r hr) hpast
    · rw [hwork.alarm_tod]
      exact hchip.tod_armed

/-! ### A dispatch -/

theorem State.Inv.fire {a overrun : Nat} (hinv : s.Inv) (hdue : (s.alarm a).due s.clk = true)
    (h : fire a overrun s = .ok t) : t.Inv := by
  rcases slot_cases a s.cfg.nchip with ⟨k, x, hk, rfl⟩ | ⟨k, hk, rfl⟩ | ha
  · rw [fire_slotOf hk] at h
    exact hinv.updateTo hk (BitVec.le_refl _) h
  · rw [fire_todSlot hk] at h
    exact inv_todTick hinv hk (target_le_of_due hdue) h
  · rw [fire_external (Nat.not_lt_of_le ha)] at h
    cases h
    exact inv_fire_external _ hinv ha

theorem State.Inv.dispatch {n : Nat} (hinv : s.Inv) (h : dispatch s = .ok (t, n)) : t.Inv :=
  (dispatchLoop_keeps (P := State.Inv)
    (fun _ _ _ hs hfirst hfire => hs.fire (State.firstDue_eq_some.mp hfirst).2.1 hfire) hinv h).1

end

end Sys2Proof.Machine
end

section
/-! Work on a chip's registers keeps the invariant (43_chip_timers.md R162): where the channels keep their place in time
(`Chip.SameTiming`) and the registers hold only bits they may hold (`Chip.Sound`), the chip is replaced and its line
updated. -/

namespace Sys2Proof.Machine

section
variable {k : Nat} {s t : State} {c d : Chip}

/-- What of a chip I1, I2 and I3 depend on is the same in `d` as in `c`: when it was reconciled, and which channels count
cycles, from where and until when (43_chip_timers.md R162). -/
structure Chip.SameTiming (c d : Chip) : Prop where
  rc : d.rc = c.rc
  u : ∀ x, (d.chan x).u = (c.chan x).u
  running : ∀ x, d.chanState x = .running ↔ c.chanState x = .running
  cnt : ∀ x, c.chanState x = .running → (d.chan x).cnt = (c.chan x).cnt

/-- A change of registers that no channel depends on. -/
theorem Chip.SameTiming.of_regs (hrc : d.rc = c.rc) (hA : d.chanA = c.chanA) (hB : d.chanB = c.chanB)
    (hcra : d.cra = c.cra) (hcrb : d.crb = c.crb) : c.SameTiming d := by
  have hchan : ∀ x, d.chan x = c.chan x := fun x => by cases x <;> assumption
  have hctl : ∀ x, d.ctl x = c.ctl x := fun x => by cases x <;> assumption
  exact ⟨hrc, fun x => by rw [hchan], fun x => by rw [Chip.chanState_congr (hctl x)], fun x _ => by rw [hchan]⟩

theorem ChanInv.sameTiming {x : Channel} (h : ChanInv s k x) (htiming : (s.chip k).SameTiming (t.chip k))
    (hslot : t.alarm (slotOf k x) = s.alarm (slotOf k x)) : ChanInv t k x := by
  by_cases hrun : (s.chip k).chanState x = .running
  · refine ChanInv.of_running ((htiming.running x).mpr hrun) ?_ ?_ ?_
    · rw [htiming.rc, htiming.u]
      exact h.running_after hrun
    · rw [hslot, htiming.u]
      exact h.running_armed hrun
    · rw [htiming.rc, htiming.u, htiming.cnt x hrun]
      exact h.running_window hrun
  · refine ChanInv.of_idle (fun h' => hrun ((htiming.running x).mp h')) ?_ ?_
    · rw [htiming.u]
      exact h.idle_never hrun
    · rw [hslot]
      exact h.idle_disarmed hrun

/-- A chip replaced, its line updated: the rule that every register's effect comes to (44_chip_icr_sdr_ports.md R214). -/
theorem State.Inv.updateLine_setChip {e : Cycle} (hinv : s.Inv) (hk : k < s.cfg.nchip) (he : e ≤ s.clk)
    (hsound : c.Sound) (htiming : (s.chip k).SameTiming c) (hread : ∀ r ∈ c.lastRead, r ≤ c.rc) :
    (updateLine k e (s.setChip k c)).Inv := by
  have hlt := hinv.chip_lt hk
  have honly := OnlyChip.setChip_updateLine k e c s
  have hchip : (updateLine k e (s.setChip k c)).chip k = c := by
    rw [State.chip_updateLine, State.chip_setChip_self s c hlt]
  have htracked : Tracked k (updateLine k e (s.setChip k c)) :=
    tracked_updateLine e (by simpa using hlt) (hinv.tracked hk).src_lt
  have halarms : (updateLine k e (s.setChip k c)).alarms = s.alarms := updateLine_alarms k e _
  have halarm := State.alarm_eq_of_alarms_eq halarms
  refine honly.inv hinv (by rw [State.AlarmsSound, halarms]; exact hinv.alarmsSound) (fun l => ?_) ?_
  · rw [honly.clk]
    rcases State.lineClk_aggSet_cases k ((s.setChip k c).chip k).summary e (s.setChip k c) l with hl | hl
    · exact (congrArg (· ≤ s.clk) hl).mpr (by rw [State.lineClk_setChip]; exact hinv.lineClk_le l)
    · exact (congrArg (· ≤ s.clk) hl).mpr he
  · have hold := hinv.chip k hk
    refine ChipInv.of_sound (by rwa [hchip])
      (fun x => (hold.chan x).sameTiming (by rwa [hchip]) (halarm _)) ?_ (by rwa [hchip]) htracked.source_eq ?_
    · rw [hchip, htiming.rc, honly.clk]
      exact hold.rc_le
    · rw [halarm]
      exact hold.tod_armed

/-- The same where the summary stays: the line is as it is. -/
theorem State.Inv.setChip (hinv : s.Inv) (hk : k < s.cfg.nchip) (hsound : c.Sound)
    (htiming : (s.chip k).SameTiming c) (hread : c.lastRead = (s.chip k).lastRead) (hmask : c.mask = (s.chip k).mask)
    (hflags : c.flags = (s.chip k).flags) : (s.setChip k c).Inv := by
  have hsummary : c.summary = (s.chip k).summary := by rw [Chip.summary, hmask, hflags, Chip.summary]
  rw [← updateLine_setChip_of_summary (e := s.clk) (hinv.tracked hk) hsummary]
  refine hinv.updateLine_setChip hk (BitVec.le_refl _) hsound htiming ?_
  rw [hread, htiming.rc]
  exact (hinv.chip k hk).lastRead_le

/-! ### Ports and the shift data register -/

/-- Port, direction and input registers are in no invariant (44_chip_icr_sdr_ports.md R220 to R230). -/
theorem State.Inv.setPorts (hinv : s.Inv) (hk : k < s.cfg.nchip)
    (hports : c = { s.chip k with
      pra := c.pra, prb := c.prb, ddra := c.ddra, ddrb := c.ddrb, inA := c.inA, inB := c.inB }) :
    (s.setChip k c).Inv := by
  have h := (hinv.chip k hk).sound
  rw [hports]
  exact hinv.setChip hk
    ⟨h.srBits_le, h.mask_low, h.flags_low, h.cra_strobe, h.crb_strobe, h.tod_masked, h.todAlarm_masked, h.todLatch_masked⟩
    (Chip.SameTiming.of_regs rfl rfl rfl rfl rfl) rfl rfl rfl

theorem State.Inv.setPortIn (hinv : s.Inv) (hk : k < s.cfg.nchip) (p : PortId) (v : Byte) : (setPortIn k p v s).Inv := by
  cases p <;> exact hinv.setPorts hk rfl

theorem State.Inv.writeSdr (hinv : s.Inv) (hk : k < s.cfg.nchip) (v : Byte) : (writeSdr k v s).Inv := by
  have h := (hinv.chip k hk).sound
  refine hinv.setChip hk
    ⟨?_, h.mask_low, h.flags_low, h.cra_strobe, h.crb_strobe, h.tod_masked, h.todAlarm_masked, h.todLatch_masked⟩
    (Chip.SameTiming.of_regs rfl rfl rfl rfl rfl) rfl rfl rfl
  dsimp only
  split
  · decide
  · exact h.srBits_le

/-! ### Flags and mask -/

/-- The flag read records its cycle, at which the chip has just been reconciled (44_chip_icr_sdr_ports.md R211). -/
theorem State.Inv.clearFlags (hinv : s.Inv) (hk : k < s.cfg.nchip) (hrc : (s.chip k).rc = s.clk) :
    (clearFlags k s).Inv := by
  have h := (hinv.chip k hk).sound
  refine hinv.updateLine_setChip hk (BitVec.le_refl _)
    ⟨h.srBits_le, h.mask_low, BitVec.zero_and, h.cra_strobe, h.crb_strobe, h.tod_masked, h.todAlarm_masked,
      h.todLatch_masked⟩
    (Chip.SameTiming.of_regs rfl rfl rfl rfl rfl) fun r hr => ?_
  cases hr
  exact BitVec.le_of_eq hrc.symm

theorem maskWith_low {m : Byte} (v : Byte) (h : m &&& 0xF0 = 0) : maskWith m v &&& 0xF0 = 0 := by
  unfold maskWith
  split
  · rw [and_or_eq_of_and_eq_zero (and_masked 0x0F rfl), h]
  · rw [BitVec.and_assoc, BitVec.and_comm (~~~_), ← BitVec.and_assoc, h]
    exact BitVec.zero_and

theorem State.Inv.writeMask (hinv : s.Inv) (hk : k < s.cfg.nchip) (v : Byte) : (writeMask k v s).Inv := by
  have h := (hinv.chip k hk).sound
  exact hinv.updateLine_setChip hk (BitVec.le_refl _)
    ⟨h.srBits_le, maskWith_low v h.mask_low, h.flags_low, h.cra_strobe, h.crb_strobe, h.tod_masked, h.todAlarm_masked,
      h.todLatch_masked⟩
    (Chip.SameTiming.of_regs rfl rfl rfl rfl rfl) (hinv.chip k hk).lastRead_le

/-! ### The time of day -/

theorem Tod.Masked.set {d : Tod} (h : d.Masked) (i : TodField) (v : Byte) : (d.set i (v &&& todMask i)).Masked := by
  obtain ⟨htenths, hseconds, hminutes, hhours⟩ := h
  cases i with
  | tenths => exact ⟨and_masked _ rfl, hseconds, hminutes, hhours⟩
  | seconds => exact ⟨htenths, and_masked _ rfl, hminutes, hhours⟩
  | minutes => exact ⟨htenths, hseconds, and_masked _ rfl, hhours⟩
  | hours => exact ⟨htenths, hseconds, hminutes, and_masked _ rfl⟩

theorem State.Inv.todRead (hinv : s.Inv) (hk : k < s.cfg.nchip) (i : TodField) : (todRead k i s).Inv := by
  have h := (hinv.chip k hk).sound
  refine hinv.setChip hk
    ⟨h.srBits_le, h.mask_low, h.flags_low, h.cra_strobe, h.crb_strobe, h.tod_masked, h.todAlarm_masked, ?_⟩
    (Chip.SameTiming.of_regs rfl rfl rfl rfl rfl) rfl rfl rfl
  dsimp only [Chip.todView]
  split
  · exact h.todLatch_masked
  · exact h.tod_masked

theorem State.Inv.todWrite (hinv : s.Inv) (hk : k < s.cfg.nchip) (i : TodField) (v : Byte) :
    (todWrite k i v s).Inv := by
  have h := (hinv.chip k hk).sound
  unfold Machine.todWrite
  dsimp only
  split
  · exact hinv.setChip hk
      ⟨h.srBits_le, h.mask_low, h.flags_low, h.cra_strobe, h.crb_strobe, h.tod_masked, h.todAlarm_masked.set i v,
        h.todLatch_masked⟩
      (Chip.SameTiming.of_regs rfl rfl rfl rfl rfl) rfl rfl rfl
  · exact hinv.setChip hk
      ⟨h.srBits_le, h.mask_low, h.flags_low, h.cra_strobe, h.crb_strobe, h.tod_masked.set i v, h.todAlarm_masked,
        h.todLatch_masked⟩
      (Chip.SameTiming.of_regs rfl rfl rfl rfl rfl) rfl rfl rfl

/-! ### A pulse -/

/-- A pulse gives no count event to a channel that counts cycles (43_chip_timers.md R201). -/
theorem Chip.pulseCounts_of_running {x : Channel} (hrun : c.chanState x = .running) : c.pulseCounts x = false := by
  cases x <;> simp [Chip.pulseCounts, hrun]

theorem Chip.pulsedCtl_cases (c : Chip) (x : Channel) :
    c.pulsedCtl x = c.ctl x ∨ (c.pulseCounts x = true ∧ c.pulsedCtl x = clearStart (c.ctl x)) := by
  unfold Chip.pulsedCtl Chip.pulseUnderflows
  cases c.pulseCounts x
  · exact .inl rfl
  · split
    · exact .inr ⟨rfl, rfl⟩
    · exact .inl rfl

theorem Chip.ctl_pulsed (added : Byte) (x : Channel) : (c.pulsed added).ctl x = c.pulsedCtl x := by cases x <;> rfl

theorem Chip.chan_pulsed (added : Byte) (x : Channel) : (c.pulsed added).chan x = c.pulsedChan x := by cases x <;> rfl

theorem Chip.sameTiming_pulsed (added : Byte) : c.SameTiming (c.pulsed added) where
  rc := rfl
  u := fun x => by
    rw [Chip.chan_pulsed, Chip.pulsedChan]
    split
    · rfl
    · split <;> rfl
  running := fun x => by
    unfold Chip.chanState
    rw [Chip.ctl_pulsed]
    rcases c.pulsedCtl_cases x with hctl | ⟨hcounts, hctl⟩
    · rw [hctl]
    · rw [hctl, ctlState_clearStart]
      refine ⟨nofun, fun hrun => ?_⟩
      rw [Chip.pulseCounts_of_running hrun] at hcounts
      cases hcounts
  cnt := fun x hrun => by
    rw [Chip.chan_pulsed, Chip.pulsedChan, Chip.pulseUnderflows, Chip.pulseCounts_of_running hrun]
    rfl

theorem Chip.pulsedCtl_strobe {x : Channel} (h : c.ctl x &&& 0x10 = 0) : c.pulsedCtl x &&& 0x10 = 0 := by
  rcases c.pulsedCtl_cases x with hctl | ⟨-, hctl⟩ <;> rw [hctl]
  · exact h
  · rw [clearStart, BitVec.and_assoc]
    exact h

theorem Chip.pulseFlags_low (early : Option Nat) : c.pulseFlags early &&& 0xF0 = 0 := by
  unfold Chip.pulseFlags
  cases c.pulseUnderflows .A <;> cases c.pulseUnderflows .B <;> cases c.pulseCompletes early <;> decide

theorem Chip.Sound.pulsed (h : c.Sound) {added : Byte} (hadded : added &&& 0xF0 = 0) : (c.pulsed added).Sound where
  srBits_le := by
    have hsr := h.srBits_le
    unfold Chip.pulsed
    dsimp only
    split
    case isFalse => exact hsr
    case isTrue hshifts =>
      have hne : c.srBits.toNat ≠ 0 := by
        simp only [Chip.pulseShifts, Bool.and_eq_true, decide_eq_true_eq] at hshifts
        exact hshifts.2
      bv_omega
  mask_low := h.mask_low
  flags_low := (and_or_eq_of_and_eq_zero hadded).trans h.flags_low
  cra_strobe := Chip.pulsedCtl_strobe (x := .A) h.cra_strobe
  crb_strobe := Chip.pulsedCtl_strobe (x := .B) h.crb_strobe
  tod_masked := h.tod_masked
  todAlarm_masked := h.todAlarm_masked
  todLatch_masked := h.todLatch_masked

theorem State.Inv.pulseChannels (hinv : s.Inv) (hk : k < s.cfg.nchip) :
    (pulseChannel k .B (pulseChannel k .A s)).Inv := by
  have hchip := hinv.chip k hk
  rw [pulseChannels_eq (hinv.tracked hk), Chip.pulse_eq_pulsed]
  refine hinv.updateLine_setChip hk (BitVec.le_refl _) (hchip.sound.pulsed ?_) (Chip.sameTiming_pulsed _)
    hchip.lastRead_le
  split
  · exact BitVec.zero_and
  · exact Chip.pulseFlags_low _

end

end Sys2Proof.Machine
end

section
/-! The writes of a latch and of a control register keep the invariant (43_chip_timers.md R162, R170, R190): each works on
one channel and its slot (`ChannelWork`), and leaves that channel counting cycles with its slot armed at its next
underflow, or idle with the slot disarmed. -/

namespace Sys2Proof.Machine

section
variable {k : Nat} {x : Channel} {s t u : State}

/-- Work on channel `x` of chip `k` and on its slot that leaves the registers beside the channels alone. -/
structure ChannelWork (k : Nat) (x : Channel) (s t : State) : Prop extends OnlyChannel k x s t where
  rc : (t.chip k).rc = (s.chip k).rc
  lastRead : (t.chip k).lastRead = (s.chip k).lastRead
  srBits : (t.chip k).srBits = (s.chip k).srBits
  mask : (t.chip k).mask = (s.chip k).mask
  flags : (t.chip k).flags = (s.chip k).flags
  tod : (t.chip k).tod = (s.chip k).tod
  todAlarm : (t.chip k).todAlarm = (s.chip k).todAlarm
  todLatch : (t.chip k).todLatch = (s.chip k).todLatch
  src : t.src = s.src
  stamp : ∀ l, t.lineClk l = s.lineClk l
  alarmsSound : s.AlarmsSound → t.AlarmsSound

theorem ChannelWork.refl (k : Nat) (x : Channel) (s : State) : ChannelWork k x s s :=
  ⟨OnlyChannel.refl k x s, rfl, rfl, rfl, rfl, rfl, rfl, rfl, rfl, rfl, fun _ => rfl, id⟩

theorem ChannelWork.trans (h : ChannelWork k x s t) (g : ChannelWork k x t u) : ChannelWork k x s u where
  toOnlyChannel := h.toOnlyChannel.trans g.toOnlyChannel
  rc := g.rc.trans h.rc
  lastRead := g.lastRead.trans h.lastRead
  srBits := g.srBits.trans h.srBits
  mask := g.mask.trans h.mask
  flags := g.flags.trans h.flags
  tod := g.tod.trans h.tod
  todAlarm := g.todAlarm.trans h.todAlarm
  todLatch := g.todLatch.trans h.todLatch
  src := g.src.trans h.src
  stamp := fun l => (g.stamp l).trans (h.stamp l)
  alarmsSound := g.alarmsSound ∘ h.alarmsSound

theorem ChannelWork.setChan (hk : k < s.chips.length) (ch : Chan) : ChannelWork k x s (s.setChan k x ch) := by
  have hchip : (s.setChan k x ch).chip k = (s.chip k).setChan x ch := State.chip_setChip_self s _ hk
  refine ⟨OnlyChannel.setChan k x ch s, ?_, ?_, ?_, ?_, ?_, ?_, ?_, ?_, rfl,
    fun l => State.lineClk_setChip s k _ l, id⟩ <;> rw [hchip]
  · exact Chip.setChan_rc _ x ch
  · exact Chip.setChan_lastRead _ x ch
  · exact Chip.setChan_srBits _ x ch
  · exact Chip.setChan_mask _ x ch
  · exact Chip.setChan_flags _ x ch
  · exact Chip.setChan_tod _ x ch
  · exact Chip.setChan_todAlarm _ x ch
  · exact Chip.setChan_todLatch _ x ch

theorem ChannelWork.setCtl (hk : k < s.chips.length) (v : Byte) : ChannelWork k x s (s.setCtl k x v) := by
  have hchip : (s.setCtl k x v).chip k = (s.chip k).setCtl x v := State.chip_setChip_self s _ hk
  refine ⟨OnlyChannel.setCtl k x v s, ?_, ?_, ?_, ?_, ?_, ?_, ?_, ?_, rfl,
    fun l => State.lineClk_setChip s k _ l, id⟩ <;> rw [hchip]
  · exact Chip.setCtl_rc _ x v
  · exact Chip.setCtl_lastRead _ x v
  · exact Chip.setCtl_srBits _ x v
  · exact Chip.setCtl_mask _ x v
  · exact Chip.setCtl_flags _ x v
  · exact Chip.setCtl_tod _ x v
  · exact Chip.setCtl_todAlarm _ x v
  · exact Chip.setCtl_todLatch _ x v

theorem ChannelWork.setAlarm {al : Alarm} (hal : al.Sound) : ChannelWork k x s (s.setAlarm (slotOf k x) al) :=
  ⟨OnlyChannel.setAlarm k x al s, rfl, rfl, rfl, rfl, rfl, rfl, rfl, rfl, rfl, fun l => State.lineClk_setAlarm s _ al l,
    fun h => h.setAlarm _ hal⟩

theorem Alarm.sound_armed_ofNat {v : Nat} (hv : v < neverNat) : Alarm.Sound ⟨true, BitVec.ofNat 32 v⟩ :=
  Alarm.sound_armed (by rwa [toNat_ofNat_cycle hv])

theorem ChannelWork.scheduled {ch : Chan} {v : Nat} (hk : k < s.chips.length) (hv : v < neverNat) :
    ChannelWork k x s (scheduled k x ch v s) :=
  (ChannelWork.setChan hk _).trans (ChannelWork.setAlarm (Alarm.sound_armed_ofNat hv))

theorem schedule_eq_ok {ch : Chan} {v : Nat} : schedule k x ch v s = .ok t ↔ v < neverNat ∧ t = scheduled k x ch v s := by
  by_cases hv : v < neverNat
  · rw [schedule_of_lt hv]
    exact ⟨fun h => by cases h; exact ⟨hv, rfl⟩, fun h => by rw [h.2]⟩
  · rw [schedule_of_ge (Nat.le_of_not_lt hv)]
    exact ⟨nofun, fun h => absurd h.1 hv⟩

theorem ChannelWork.sound (h : ChannelWork k x s t) (hs : (s.chip k).Sound) (hctl : (t.chip k).ctl x &&& 0x10 = 0) :
    (t.chip k).Sound := by
  have hstrobe (y : Channel) : (t.chip k).ctl y &&& 0x10 = 0 := by
    by_cases hy : y = x
    · rwa [hy]
    · rw [h.ctl y hy]
      cases y
      · exact hs.cra_strobe
      · exact hs.crb_strobe
  exact ⟨by rw [h.srBits]; exact hs.srBits_le, by rw [h.mask]; exact hs.mask_low, by rw [h.flags]; exact hs.flags_low,
    hstrobe .A, hstrobe .B, by rw [h.tod]; exact hs.tod_masked, by rw [h.todAlarm]; exact hs.todAlarm_masked,
    by rw [h.todLatch]; exact hs.todLatch_masked⟩

/-- The other channel is as it was. -/
theorem ChannelWork.chanInv {y : Channel} (h : ChannelWork k x s t) (hy : y ≠ x) (hs : ChanInv s k y) : ChanInv t k y :=
  hs.congr (h.chan y hy) (h.ctl y hy) h.rc (h.slot _ fun he => hy (slotOf_inj he).2)

/-- Work on one channel keeps the invariant where it keeps that channel's and stores no strobe bit. -/
theorem State.Inv.channelWork (hinv : s.Inv) (hk : k < s.cfg.nchip) (h : ChannelWork k x s t)
    (hchan : ChanInv t k x) (hctl : (t.chip k).ctl x &&& 0x10 = 0) : t.Inv := by
  have hold := hinv.chip k hk
  refine h.toOnlyChip.inv hinv (h.alarmsSound hinv.alarmsSound) (fun l => ?_)
    (ChipInv.of_sound (h.sound hold.sound hctl) (fun y => ?_) ?_ ?_ ?_ ?_)
  · rw [h.stamp, h.clk]
    exact hinv.lineClk_le l
  · by_cases hy : y = x
    · rwa [hy]
    · exact h.chanInv hy (hold.chan y)
  · rw [h.rc, h.clk]
    exact hold.rc_le
  · rw [h.lastRead, h.rc]
    exact hold.lastRead_le
  · rw [State.source, h.src, Chip.summary, h.flags, h.mask]
    exact hold.source_eq
  · rw [h.slot _ (slotOf_ne_todSlot k k x).symm]
    exact hold.tod_armed

/-- A channel scheduled inside the window of I2 (43_chip_timers.md R161, R162). -/
theorem chanInv_of_scheduled {v : Nat} (hrun : (t.chip k).chanState x = .running) (hv : v < neverNat)
    (hu : ((t.chip k).chan x).u = BitVec.ofNat 32 v) (hslot : t.alarm (slotOf k x) = ⟨true, BitVec.ofNat 32 v⟩)
    (hafter : (t.chip k).rc.toNat < v) (hwindow : v ≤ (t.chip k).rc.toNat + ((t.chip k).chan x).cnt.toNat + 2) :
    ChanInv t k x := by
  have hnat := toNat_ofNat_cycle hv
  refine ChanInv.of_running hrun ?_ (by rw [hslot, hu]) (by rwa [hu, hnat])
  rw [hu]
  exact BitVec.lt_def.mpr (by rwa [hnat])

/-! ### Latch writes -/

theorem ctl_strobe (hinv : s.Inv) (hk : k < s.cfg.nchip) (x : Channel) : (s.chip k).ctl x &&& 0x10 = 0 := by
  cases x
  · exact (hinv.chip k hk).cra_strobe
  · exact (hinv.chip k hk).crb_strobe

/-- A latch write keeps the invariant: the counter that is written through moves the next underflow with it, and the
window stays (43_chip_timers.md R190). -/
theorem State.Inv.writeLatchByte {half : Half} {v : Byte} (hinv : s.Inv) (hk : k < s.cfg.nchip)
    (hrc : (s.chip k).rc = s.clk) (h : writeLatchByte k x half v s = .ok t) : t.Inv := by
  have hlt := hinv.chip_lt hk
  have hchan := (hinv.chip k hk).chan x
  rw [writeLatchByte_eq] at h
  split at h
  case isFalse =>
    cases h
    have hchip := State.chip_setChip_self s ((s.chip k).setChan x
      { (s.chip k).chan x with latch := latchWith ((s.chip k).chan x).latch half v }) hlt
    refine hinv.channelWork hk (ChannelWork.setChan hlt _) (hchan.sameTiming ?_ rfl) ?_
    · rw [State.setChan, hchip]
      exact ⟨Chip.setChan_rc _ _ _,
        fun y => by by_cases hy : y = x <;> simp [hy],
        fun y => by rw [Chip.chanState_congr (Chip.ctl_setChan _ _ _ _)],
        fun y _ => by by_cases hy : y = x <;> simp [hy]⟩
    · rw [State.setChan, hchip, Chip.ctl_setChan]
      exact ctl_strobe hinv hk x
  case isTrue hthrough =>
    obtain ⟨hrun, hlive⟩ := hthrough
    obtain ⟨hv, rfl⟩ := schedule_eq_ok.mp h
    have hwindow := hchan.running_window hrun
    have hchip := chip_scheduled (x := x) (s := s) (v := max (((s.chip k).chan x).u.toNat -
      ((s.chip k).chan x).latch.toNat + (latchWith ((s.chip k).chan x).latch half v).toNat) (s.clk.toNat + 1))
      (ch := { (s.chip k).chan x with
        latch := latchWith ((s.chip k).chan x).latch half v, cnt := latchWith ((s.chip k).chan x).latch half v }) hlt
    have hlatch : ((s.chip k).chan x).latch.toNat =
        min ((s.chip k).chan x).cnt.toNat (((s.chip k).chan x).u.toNat - s.clk.toNat) := by
      rw [← hlive, Chip.live_of_running hrun, toNat_ofNat_min_count]
    rw [hrc] at hwindow
    refine hinv.channelWork hk (ChannelWork.scheduled hlt hv) (chanInv_of_scheduled ?_ hv ?_ ?_ ?_ ?_) ?_
    · rw [hchip, Chip.chanState_congr (Chip.ctl_setChan _ _ _ _), hrun]
    · rw [hchip, Chip.chan_setChan]
    · exact alarm_scheduled (hinv.slotOf_lt hk x)
    · rw [hchip, Chip.setChan_rc, hrc]
      omega
    · rw [hchip, Chip.setChan_rc, Chip.chan_setChan, hrc]
      dsimp only
      omega
    · rw [hchip, Chip.ctl_setChan]
      exact ctl_strobe hinv hk x

/-! ### Control writes -/

/-- The state a control write ends in: the effect's, with the byte stored (43_chip_timers.md R170). -/
structure CtlStored (k : Nat) (x : Channel) (v : Byte) (u t : State) : Prop where
  chan : (t.chip k).chan x = (u.chip k).chan x
  rc : (t.chip k).rc = (u.chip k).rc
  slot : t.alarm (slotOf k x) = u.alarm (slotOf k x)
  running : (t.chip k).chanState x = .running ↔ countsClock x v = true

theorem ctlStored (hk : k < u.chips.length) (v : Byte) : CtlStored k x v u (u.setCtl k x (v &&& 0xEF)) := by
  have hchip : (u.setCtl k x (v &&& 0xEF)).chip k = (u.chip k).setCtl x (v &&& 0xEF) := State.chip_setChip_self u _ hk
  refine ⟨?_, ?_, rfl, ?_⟩ <;> rw [hchip]
  · exact Chip.chan_setCtl _ _ _ _
  · exact Chip.setCtl_rc _ _ _
  · rw [Chip.chanState, Chip.ctl_setCtl]
    exact ctlState_eq_running_iff x v

/-- A channel that counts cycles after the write is scheduled one to two cycles past its counter (43_chip_timers.md R170,
R171, R173). -/
theorem chanInv_ctlStored_scheduled {v : Byte} {ch : Chan} {d : Nat} (hk : k < s.chips.length)
    (hslot : slotOf k x < s.alarms.length) (hrc : (s.chip k).rc = s.clk) (hcounts : countsClock x v = true)
    (hd : s.clk.toNat + d < neverNat) (hpos : 0 < d) (hwindow : d ≤ ch.cnt.toNat + 2)
    (h : CtlStored k x v (scheduled k x ch (s.clk.toNat + d) s) t) : ChanInv t k x := by
  have hchip := chip_scheduled (x := x) (ch := ch) (v := s.clk.toNat + d) hk
  have hrc' : (t.chip k).rc = s.clk := by rw [h.rc, hchip, Chip.setChan_rc, hrc]
  refine chanInv_of_scheduled (h.running.mpr hcounts) hd ?_ (h.slot.trans (alarm_scheduled hslot)) ?_ ?_
  · rw [h.chan, hchip, Chip.chan_setChan]
  · rw [hrc']
    omega
  · rw [hrc', h.chan, hchip, Chip.chan_setChan]
    dsimp only
    omega

/-- A write that leaves a channel's next underflow alone, and whether it counts cycles. -/
theorem chanInv_ctlStored_kept {v : Byte} (hinv : ChanInv s k x) (hu : ((u.chip k).chan x).u = ((s.chip k).chan x).u)
    (hrc : (u.chip k).rc = (s.chip k).rc) (hslot : u.alarm (slotOf k x) = s.alarm (slotOf k x))
    (hcnt : (s.chip k).chanState x = .running → ((u.chip k).chan x).cnt = ((s.chip k).chan x).cnt)
    (hrun : (s.chip k).chanState x = .running ↔ countsClock x v = true) (h : CtlStored k x v u t) : ChanInv t k x := by
  by_cases hold : (s.chip k).chanState x = .running
  · refine ChanInv.of_running (h.running.mpr (hrun.mp hold)) ?_ ?_ ?_
    · rw [h.rc, h.chan, hrc, hu]
      exact hinv.running_after hold
    · rw [h.slot, hslot, h.chan, hu]
      exact hinv.running_armed hold
    · rw [h.rc, h.chan, hrc, hu, hcnt hold]
      exact hinv.running_window hold
  · refine ChanInv.of_idle (fun hnew => hold (hrun.mpr (h.running.mp hnew))) ?_ ?_
    · rw [h.chan, hu]
      exact hinv.idle_never hold
    · rw [h.slot, hslot]
      exact hinv.idle_disarmed hold

/-- What each of the four cases of a control write does to its channel (43_chip_timers.md R170). -/
theorem controlEffect_inv {v : Byte} (hinv : s.Inv) (hk : k < s.cfg.nchip) (hrc : (s.chip k).rc = s.clk)
    (h : controlEffect k x v s = .ok u) (hstored : CtlStored k x v u t) : ChannelWork k x s u ∧ ChanInv t k x := by
  have hlt := hinv.chip_lt hk
  have hslot := hinv.slotOf_lt hk x
  have hchan := (hinv.chip k hk).chan x
  unfold controlEffect at h
  cases hwas : decide ((s.chip k).chanState x = .running) <;> cases hwill : countsClock x v <;> rw [hwas, hwill] at h
  case false.true =>
    dsimp only at h
    rw [startChannel_eq] at h
    obtain ⟨hv, rfl⟩ := schedule_eq_ok.mp h
    refine ⟨ChannelWork.scheduled hlt hv, chanInv_ctlStored_scheduled hlt hslot hrc hwill hv (by omega) ?_ hstored⟩
    cases loadStrobe v <;> simp only [Bool.toNat_false, Bool.toNat_true] <;> omega
  case true.false =>
    cases h
    refine ⟨(ChannelWork.setChan hlt _).trans (ChannelWork.setAlarm Alarm.sound_disarmed), ?_⟩
    refine ChanInv.of_idle (fun hrun => ?_) ?_ ?_
    · rw [hstored.running, hwill] at hrun
      cases hrun
    · rw [hstored.chan]
      change (((s.setChan k x _).chip k).chan x).u = never
      rw [State.setChan, State.chip_setChip_self s _ hlt, Chip.chan_setChan]
    · rw [hstored.slot]
      exact State.alarm_setAlarm_self _ _ hslot
  case true.true =>
    have hrun : (s.chip k).chanState x = .running ↔ countsClock x v = true := by simp_all
    dsimp only at h
    split at h
    case isTrue =>
      rw [reloadRunning_eq] at h
      obtain ⟨hv, rfl⟩ := schedule_eq_ok.mp h
      exact ⟨ChannelWork.scheduled hlt hv,
        chanInv_ctlStored_scheduled hlt hslot hrc hwill hv (by omega) (Nat.le_refl _) hstored⟩
    case isFalse =>
      cases h
      exact ⟨ChannelWork.refl k x s, chanInv_ctlStored_kept hchan rfl rfl rfl (fun _ => rfl) hrun hstored⟩
  case false.false =>
    have hidle : (s.chip k).chanState x ≠ .running := of_decide_eq_false hwas
    have hrun : (s.chip k).chanState x = .running ↔ countsClock x v = true :=
      ⟨fun h => absurd h hidle, fun h => by rw [hwill] at h; cases h⟩
    dsimp only at h
    cases hload : loadStrobe v with
    | false =>
      rw [hload, if_neg Bool.false_ne_true] at h
      cases h
      exact ⟨ChannelWork.refl k x s, chanInv_ctlStored_kept hchan rfl rfl rfl (fun _ => rfl) hrun hstored⟩
    | true =>
      rw [hload, if_pos rfl] at h
      cases h
      have hchip : (loadIdle k x s).chip k = (s.chip k).setChan x (((s.chip k).chan x).loaded true) :=
        State.chip_setChip_self s _ hlt
      refine ⟨ChannelWork.setChan hlt _, chanInv_ctlStored_kept (u := loadIdle k x s) hchan ?_ ?_ rfl
        (fun h => absurd h hidle) hrun hstored⟩
      · rw [hchip, Chip.chan_setChan]
        rfl
      · rw [hchip, Chip.setChan_rc]

/-- A control write keeps the invariant (43_chip_timers.md R162, R170). -/
theorem State.Inv.writeControl {v : Byte} (hinv : s.Inv) (hk : k < s.cfg.nchip) (hrc : (s.chip k).rc = s.clk)
    (h : writeControl k x v s = .ok t) : t.Inv := by
  obtain ⟨u, heffect, ht⟩ := bind_eq_ok.mp h
  cases ht
  have hltu : k < u.chips.length := by
    rw [(OnlyChip.controlEffect heffect).chips_length]
    exact hinv.chip_lt hk
  obtain ⟨hwork, hchan⟩ := controlEffect_inv hinv hk hrc heffect (ctlStored hltu v)
  refine hinv.channelWork hk (hwork.trans (ChannelWork.setCtl hltu _)) hchan ?_
  rw [State.setCtl, State.chip_setChip_self u _ hltu, Chip.ctl_setCtl]
  exact and_masked 0xEF rfl

end

end Sys2Proof.Machine
end

section
/-! Resets and restores keep the invariant (43_chip_timers.md R162; 46_snapshot.md R266; 70_reset_and_hazards.md R310 to
R312): a chip that is reset has both channels idle and its tick armed, a chip that is restored has its running channels
armed again; and a domain reset brings the invariant about from any state with well-formed parameters. -/

namespace Sys2Proof.Machine

section
variable {k : Nat} {x : Channel} {c : Cycle} {s t u : State}

/-! ### Chip reset -/

theorem Chip.blank_idle (latchA latchB : Count) (c : Cycle) (x : Channel) :
    (Chip.blank latchA latchB c).chanState x ≠ .running := by
  have hctl : (Chip.blank latchA latchB c).ctl x = (Chip.atReset latchA latchB).ctl x := by cases x <;> rfl
  rw [Chip.chanState_congr hctl]
  exact Chip.atReset_idle latchA latchB x

theorem Chip.blank_u (latchA latchB : Count) (c : Cycle) (x : Channel) :
    ((Chip.blank latchA latchB c).chan x).u = never := by cases x <;> rfl

theorem Chip.blank_sound (latchA latchB : Count) (c : Cycle) : (Chip.blank latchA latchB c).Sound :=
  have h := Chip.atReset_sound latchA latchB
  ⟨h.srBits_le, h.mask_low, h.flags_low, h.cra_strobe, h.crb_strobe, h.tod_masked, h.todAlarm_masked,
    h.todLatch_masked⟩

theorem Chip.blank_summary (latchA latchB : Count) (c : Cycle) : (Chip.blank latchA latchB c).summary = false :=
  Chip.atReset_summary latchA latchB

/-- What a chip reset leaves (70_reset_and_hazards.md R312). -/
structure BlankAt (k : Nat) (c : Cycle) (t : State) : Prop where
  chip : ∃ latchA latchB, t.chip k = Chip.blank latchA latchB c
  slot : ∀ x, t.alarm (slotOf k x) = ⟨false, never⟩
  tod : (t.alarm (todSlot k)).armed = true
  source : t.source k = false

theorem blankAt_chipReset (hk : k < s.chips.length) (hslot : todSlot k < s.alarms.length) (hsrc : k < s.src.length)
    (h : chipReset k c s = .ok t) : BlankAt k c t := by
  rw [chipReset_eq] at h
  obtain ⟨u, harm, ht⟩ := bind_eq_ok.mp h
  obtain ⟨-, rfl⟩ := alarmSet_eq_ok.mp harm
  cases ht
  have halarm := fun a => State.alarm_eq_of_alarms_eq (aggSet_alarms k false c
    ((unarmed k (blankChip k c s)).setAlarm (todSlot k) ⟨true, BitVec.ofNat 32 (c.toNat + s.cfg.todPeriod)⟩)) a
  refine ⟨⟨Config.freeLatch s.draws, Config.freeLatch (s.draws + 1), ?_⟩, fun x => ?_, ?_, ?_⟩
  · rw [State.chip_aggSet]
    exact State.chip_setChip_self s _ hk
  · rw [halarm, State.alarm_setAlarm_ne _ _ (slotOf_ne_todSlot k k x), alarm_unarmed]
  · rw [halarm, State.alarm_setAlarm_self]
    simpa [unarmed, alarmUnset, State.setAlarm, blankChip] using hslot
  · rw [State.source, aggSet_src]
    exact State.source_setSource_self (s := s) false hsrc

theorem BlankAt.chipInv (h : BlankAt k c t) (hc : c ≤ t.clk) : ChipInv t k := by
  obtain ⟨latchA, latchB, hchip⟩ := h.chip
  refine ChipInv.of_sound (by rw [hchip]; exact Chip.blank_sound _ _ _) (fun x => ChanInv.of_idle ?_ ?_ (h.slot x)) ?_ ?_ ?_
    h.tod
  · rw [hchip]
    exact Chip.blank_idle _ _ _ x
  · rw [hchip, Chip.blank_u]
  · rw [hchip]
    exact hc
  · rw [hchip]
    exact fun _ hr => nomatch hr
  · rw [h.source, hchip, Chip.blank_summary]

theorem alarmsSound_chipReset (hsound : s.AlarmsSound) (h : chipReset k c s = .ok t) : t.AlarmsSound := by
  rw [chipReset_eq] at h
  obtain ⟨u, harm, ht⟩ := bind_eq_ok.mp h
  obtain ⟨hlt, rfl⟩ := alarmSet_eq_ok.mp harm
  cases ht
  have hblank : (unarmed k (blankChip k c s)).AlarmsSound :=
    (State.AlarmsSound.setAlarm (s := blankChip k c s) hsound _ Alarm.sound_disarmed).setAlarm _ Alarm.sound_disarmed
  rw [State.AlarmsSound, aggSet_alarms]
  exact hblank.setAlarm _ (Alarm.sound_armed_ofNat hlt)

/-- A reset deasserts the chip's source, which stamps no line (42_interrupt_aggregator.md R143). -/
theorem lineClk_chipReset (hsrc : k < s.src.length) (h : chipReset k c s = .ok t) (l : Line) : t.lineClk l = s.lineClk l := by
  rw [chipReset_eq] at h
  obtain ⟨u, harm, ht⟩ := bind_eq_ok.mp h
  obtain ⟨-, rfl⟩ := alarmSet_eq_ok.mp harm
  cases ht
  rw [aggSet, if_neg (by rw [State.rises_false (by exact hsrc)]; exact Bool.false_ne_true)]
  cases l <;> rfl

theorem State.Inv.chipReset (hinv : s.Inv) (hk : k < s.cfg.nchip) (hc : c ≤ s.clk) (h : chipReset k c s = .ok t) :
    t.Inv := by
  have honly := (chipReset_onlyChip h).1
  have hsrc := (hinv.tracked hk).src_lt
  refine honly.inv hinv (alarmsSound_chipReset hinv.alarmsSound h) (fun l => ?_)
    ((blankAt_chipReset (hinv.chip_lt hk) (hinv.todSlot_lt hk) hsrc h).chipInv (by rwa [honly.clk]))
  rw [lineClk_chipReset hsrc h, honly.clk]
  exact hinv.lineClk_le l

/-! ### Domain reset -/

/-- The invariant but for the chips from `n` on. -/
structure InvBelow (n : Nat) (s : State) : Prop where
  cfg_wf : s.cfg.Wf
  alarms_length : s.alarms.length = s.cfg.nAlarms
  src_length : s.src.length = s.cfg.nSources
  chips_length : s.chips.length = s.cfg.nchip
  clk_lt : s.clk.toNat < neverNat
  alarmsSound : s.AlarmsSound
  lineClk_le : ∀ l, s.lineClk l ≤ s.clk
  chip : ∀ k < n, ChipInv s k

theorem InvBelow.inv (h : InvBelow s.cfg.nchip s) : s.Inv :=
  ⟨h.cfg_wf, h.alarms_length, h.src_length, h.chips_length, h.clk_lt, fun al hal => (h.alarmsSound al hal).1,
    fun al hal => (h.alarmsSound al hal).2, h.lineClk_le, h.chip⟩

theorem InvBelow.chipReset (h : InvBelow k s) (hk : k < s.cfg.nchip) (hreset : Machine.chipReset k 0 s = .ok t) :
    InvBelow (k + 1) t := by
  have honly := (chipReset_onlyChip hreset).1
  have hslots := h.cfg_wf.slots_ge
  have hsources := h.cfg_wf.sources_ge
  have hsrc : k < s.src.length := by rw [h.src_length]; omega
  have hblank := blankAt_chipReset (by rwa [h.chips_length]) (by rw [h.alarms_length]; unfold todSlot; omega) hsrc hreset
  exact {
    cfg_wf := by rw [honly.cfg]; exact h.cfg_wf
    alarms_length := by rw [honly.cfg, honly.alarms_length, h.alarms_length]
    src_length := by rw [honly.cfg, honly.src_length, h.src_length]
    chips_length := by rw [honly.cfg, honly.chips_length, h.chips_length]
    clk_lt := by rw [honly.clk]; exact h.clk_lt
    alarmsSound := alarmsSound_chipReset h.alarmsSound hreset
    lineClk_le := fun l => by rw [lineClk_chipReset hsrc hreset, honly.clk]; exact h.lineClk_le l
    chip := fun j hj => by
      by_cases hjk : j = k
      · exact hjk ▸ hblank.chipInv (Nat.zero_le _)
      · obtain ⟨hslot, htod⟩ := honly.alarm_of_ne hjk
        exact (h.chip j (by omega)).congr (honly.chip j hjk) honly.clk hslot htod (honly.source j hjk) }

/-- The tables of a domain reset before the chips are reset (70_reset_and_hazards.md R310). -/
theorem invBelow_cleared (hwf : s.cfg.Wf) : InvBelow 0 { s with
    fault := none
    clk := 0
    alarms := List.replicate s.cfg.nAlarms ⟨false, never⟩
    src := List.replicate s.cfg.nSources false
    lineClkMaskable := 0
    lineClkUrgent := 0
    cpuMasked := false
    chips := List.replicate s.cfg.nchip Chip.absent } where
  cfg_wf := hwf
  alarms_length := List.length_replicate
  src_length := List.length_replicate
  chips_length := List.length_replicate
  clk_lt := Nat.zero_lt_succ _
  alarmsSound := fun al hal => by
    rw [List.eq_of_mem_replicate hal]
    exact Alarm.sound_disarmed
  lineClk_le := fun l => by cases l <;> exact BitVec.le_refl _
  chip := fun _ hk => absurd hk (Nat.not_lt_zero _)

theorem invBelow_chipResets {n : Nat} (h : InvBelow 0 s) (hn : n ≤ s.cfg.nchip)
    (hloop : forUpTo (fun k => chipReset k 0) n s = .ok t) : InvBelow n t ∧ t.cfg = s.cfg := by
  induction n generalizing t with
  | zero =>
    cases hloop
    exact ⟨h, rfl⟩
  | succ n ih =>
    obtain ⟨u, hloop, hreset⟩ := forUpTo_succ_eq_ok.mp hloop
    obtain ⟨hu, hcfg⟩ := ih (Nat.le_of_succ_le hn) hloop
    exact ⟨hu.chipReset (by rw [hcfg]; omega) hreset, ((chipReset_onlyChip hreset).1.cfg).trans hcfg⟩

theorem inv_domainReset (hwf : s.cfg.Wf) (h : domainReset s = .ok t) : t.Inv := by
  obtain ⟨hbelow, hcfg⟩ := invBelow_chipResets (invBelow_cleared hwf) (Nat.le_refl _) h
  exact InvBelow.inv (by rw [hcfg]; exact hbelow)

/-! ### Restore -/

theorem Chip.restored_sound (cfg : Config) (c : Cycle) (p : List Byte) (old : Chip) : (restoredChip cfg c p old).Sound where
  srBits_le := by
    change (BitVec.ofNat 5 (min (byteAt p 33).toNat 16)).toNat ≤ 16
    rw [BitVec.toNat_ofNat]
    exact Nat.le_trans (Nat.mod_le _ _) (Nat.min_le_right _ _)
  mask_low := and_masked _ rfl
  flags_low := and_masked _ rfl
  cra_strobe := and_masked _ rfl
  crb_strobe := and_masked _ rfl
  tod_masked := ⟨and_masked _ rfl, and_masked _ rfl, and_masked _ rfl, and_masked _ rfl⟩
  todAlarm_masked := ⟨and_masked _ rfl, and_masked _ rfl, and_masked _ rfl, and_masked _ rfl⟩
  todLatch_masked := ⟨and_masked _ rfl, and_masked _ rfl, and_masked _ rfl, and_masked _ rfl⟩

theorem lastReadOf_le (cfg : Config) (b : Byte) (c : Cycle) : ∀ r ∈ lastReadOf cfg b c, r ≤ c := by
  intro r hr
  unfold lastReadOf at hr
  split at hr
  · cases hr
  · cases hr
    have hc := c.isLt
    rw [BitVec.le_def, BitVec.toNat_ofNat, Nat.mod_eq_of_lt (by omega)]
    exact Nat.sub_le _ _

/-- A running channel is armed within the window of I2 (46_snapshot.md R266). -/
theorem rearmChannel_inv (hunarmed : Unarmed k x s) (hrc : (s.chip k).rc = s.clk) (hk : k < s.chips.length)
    (hslot : slotOf k x < s.alarms.length) (h : rearmChannel k x s = .ok t) :
    ChannelWork k x s t ∧ ChanInv t k x ∧ (t.chip k).ctl x = (s.chip k).ctl x := by
  rw [rearmChannel_eq] at h
  split at h
  case isFalse hidle =>
    cases h
    exact ⟨ChannelWork.refl k x s, ChanInv.of_idle hidle hunarmed.u hunarmed.slot, rfl⟩
  case isTrue hrun =>
    obtain ⟨hv, rfl⟩ := schedule_eq_ok.mp h
    have hchip := chip_scheduled (x := x) (ch := (s.chip k).chan x)
      (v := s.clk.toNat + max ((s.chip k).chan x).cnt.toNat 1) hk
    refine ⟨ChannelWork.scheduled hk hv, chanInv_of_scheduled ?_ hv ?_ (alarm_scheduled hslot) ?_ ?_, ?_⟩
    · rw [hchip, Chip.chanState_congr (Chip.ctl_setChan _ _ _ _), hrun]
    · rw [hchip, Chip.chan_setChan]
    · rw [hchip, Chip.setChan_rc, hrc]
      omega
    · rw [hchip, Chip.setChan_rc, hrc, Chip.chan_setChan]
      dsimp only
      omega
    · rw [hchip, Chip.ctl_setChan]

/-- A chip as a restore leaves it before its tick is armed and its line updated (46_snapshot.md R266). -/
structure RestoredBy (k : Nat) (p : List Byte) (s t : State) : Prop where
  sound : (t.chip k).Sound
  chan : ∀ x, ChanInv t k x
  rc : (t.chip k).rc = s.clk
  lastRead : ∀ r ∈ (t.chip k).lastRead, r ≤ s.clk
  only : OnlyChip k s t
  alarmsSound : s.AlarmsSound → t.AlarmsSound
  stamp : ∀ l, t.lineClk l = s.lineClk l

theorem restoredBy_rearm {p : List Byte} (hinv : s.Inv) (hk : k < s.cfg.nchip)
    (hA : rearmChannel k .A (restored k p s) = .ok u) (hB : rearmChannel k .B u = .ok t) : RestoredBy k p s t := by
  have hlt := hinv.chip_lt hk
  have honly := OnlyChip.restored k p s
  have hchip : (restored k p s).chip k = restoredChip s.cfg s.clk p (s.chip k) := State.chip_setChip_self _ _ hlt
  have hsound : ((restored k p s).chip k).Sound := by
    rw [hchip]
    exact Chip.restored_sound _ _ _ _
  have hunarmed := Unarmed.of_restored p hlt
  obtain ⟨hworkA, hinvA, hctlA⟩ := rearmChannel_inv (hunarmed .A) (by rw [hchip]; exact honly.clk.symm)
    (by rwa [honly.chips_length]) (by rw [honly.alarms_length]; exact hinv.slotOf_lt hk .A) hA
  have hrcA : (u.chip k).rc = u.clk := by
    rw [hworkA.rc, hchip, hworkA.clk, honly.clk]
    rfl
  obtain ⟨hworkB, hinvB, hctlB⟩ := rearmChannel_inv
    ((hunarmed .B).onlyChannel hworkA.toOnlyChannel (by decide)) hrcA
    (by rwa [hworkA.chips_length, honly.chips_length])
    (by rw [hworkA.alarms_length, honly.alarms_length]; exact hinv.slotOf_lt hk .B) hB
  have hsoundA := hworkA.sound hsound (by rw [hctlA]; exact hsound.cra_strobe)
  refine ⟨hworkB.sound hsoundA (by rw [hctlB]; exact hsoundA.crb_strobe), fun x => ?_, ?_, ?_,
    (honly.trans hworkA.toOnlyChip).trans hworkB.toOnlyChip, fun h => ?_, fun l => ?_⟩
  · cases x with
    | A => exact hworkB.chanInv (by decide) hinvA
    | B => exact hinvB
  · rw [hworkB.rc, hworkA.rc, hchip]
    rfl
  · rw [hworkB.lastRead, hworkA.lastRead, hchip]
    exact lastReadOf_le _ _ _
  · exact hworkB.alarmsSound (hworkA.alarmsSound
      (((h.setAlarm _ Alarm.sound_disarmed).setAlarm _ Alarm.sound_disarmed).setAlarm _ Alarm.sound_disarmed))
  · rw [hworkB.stamp, hworkA.stamp]
    cases l <;> rfl

theorem State.Inv.restoreFrom {p : List Byte} (hinv : s.Inv) (hk : k < s.cfg.nchip) (h : restoreFrom k p s = .ok t) :
    t.Inv := by
  have hframe := OnlyChip.restoreFrom h
  rw [restoreFrom_eq] at h
  obtain ⟨a, hA, h⟩ := bind_eq_ok.mp h
  obtain ⟨b, hB, h⟩ := bind_eq_ok.mp h
  obtain ⟨d, harm, h⟩ := bind_eq_ok.mp h
  obtain ⟨hlt, rfl⟩ := alarmSet_eq_ok.mp harm
  cases h
  have hb := restoredBy_rearm hinv hk hA hB
  have hchip : ∀ e, (updateLine k e (b.setAlarm (todSlot k) ⟨true, BitVec.ofNat 32 (b.clk.toNat + tickDelta p)⟩)).chip k =
      b.chip k := fun e => State.chip_updateLine k e _ k
  have halarm := fun e => State.alarm_eq_of_alarms_eq
    (updateLine_alarms k e (b.setAlarm (todSlot k) ⟨true, BitVec.ofNat 32 (b.clk.toNat + tickDelta p)⟩))
  have hltb : k < b.chips.length := by rw [hb.only.chips_length]; exact hinv.chip_lt hk
  have htracked := tracked_updateLine b.clk
    (s := b.setAlarm (todSlot k) ⟨true, BitVec.ofNat 32 (b.clk.toNat + tickDelta p)⟩) hltb
    (show k < b.src.length by rw [hb.only.src_length]; exact (hinv.tracked hk).src_lt)
  refine hframe.inv hinv ?_ (fun l => ?_) (ChipInv.of_sound ?_ (fun x => ?_) ?_ ?_ htracked.source_eq ?_)
  · rw [State.AlarmsSound, updateLine_alarms]
    exact (hb.alarmsSound hinv.alarmsSound).setAlarm _ (Alarm.sound_armed_ofNat hlt)
  · rw [hframe.clk]
    rcases State.lineClk_aggSet_cases k _ b.clk
      (b.setAlarm (todSlot k) ⟨true, BitVec.ofNat 32 (b.clk.toNat + tickDelta p)⟩) l with hl | hl
    · refine (congrArg (· ≤ s.clk) hl).mpr ?_
      rw [State.lineClk_setAlarm, hb.stamp]
      exact hinv.lineClk_le l
    · refine (congrArg (· ≤ s.clk) hl).mpr ?_
      rw [hb.only.clk]
      exact BitVec.le_refl _
  · rw [hchip]
    exact hb.sound
  · refine (hb.chan x).congr (by rw [hchip]) (by rw [hchip]) (by rw [hchip]) ?_
    rw [halarm, State.alarm_setAlarm_ne _ _ (slotOf_ne_todSlot k k x)]
  · rw [hchip, hframe.clk, hb.rc]
    exact BitVec.le_refl _
  · rw [hchip, hb.rc]
    exact hb.lastRead
  · rw [halarm, State.alarm_setAlarm_self _ _ (by rw [hb.only.alarms_length]; exact hinv.todSlot_lt hk)]

end

end Sys2Proof.Machine
end

section
/-! The counter, the guard, the external slots and sources keep the invariant (43_chip_timers.md R162; 40_counter_guard.md
R100 to R107; 10_state.md R25, R26): they write outside the chips, or move every cycle of the state by the same amount. -/

namespace Sys2Proof.Machine

section
variable {k : Nat} {x : Channel} {s t : State} {sub : Nat} {r : BitVec 32}

/-! ### Outside the chips -/

/-- Work outside the chips keeps the invariant where the tables and the stamps stay sound. -/
theorem State.Inv.elsewhere (hinv : s.Inv) (hcfg : t.cfg = s.cfg) (hclk : t.clk = s.clk) (hchips : t.chips = s.chips)
    (halarms : t.alarms.length = s.alarms.length) (hsrc : t.src.length = s.src.length)
    (halarm : ∀ a < 3 * s.cfg.nchip, t.alarm a = s.alarm a) (hsource : ∀ n < s.cfg.nchip, t.source n = s.source n)
    (hsound : t.AlarmsSound) (hstamp : ∀ l, t.lineClk l ≤ s.clk) : t.Inv where
  cfg_wf := by rw [hcfg]; exact hinv.cfg_wf
  alarms_length := by rw [hcfg, halarms, hinv.alarms_length]
  src_length := by rw [hcfg, hsrc, hinv.src_length]
  chips_length := by rw [hcfg, hchips, hinv.chips_length]
  clk_lt := by rw [hclk]; exact hinv.clk_lt
  armed_lt := fun al hal => (hsound al hal).1
  disarmed_never := fun al hal => (hsound al hal).2
  lineClk_le := fun l => by rw [hclk]; exact hstamp l
  chip := fun j hj => by
    rw [hcfg] at hj
    have htod : todSlot j < 3 * s.cfg.nchip := by unfold todSlot; omega
    exact (hinv.chip j hj).congr (State.chip_eq_of_chips_eq hchips j) hclk
      (fun x => halarm _ (Nat.lt_trans (Machine.slotOf_lt j x).2 htod)) (halarm _ htod) (hsource j hj)

/-- Nothing but what no invariant speaks of is changed: the port, the answer, the fault, the mask, the events. -/
theorem State.Inv.of_eq (hinv : s.Inv) (hcfg : t.cfg = s.cfg) (hclk : t.clk = s.clk) (hchips : t.chips = s.chips)
    (halarms : t.alarms = s.alarms) (hsrc : t.src = s.src) (hstamp : ∀ l, t.lineClk l = s.lineClk l) : t.Inv :=
  hinv.elsewhere hcfg hclk hchips (by rw [halarms]) (by rw [hsrc])
    (fun a _ => State.alarm_eq_of_alarms_eq halarms a) (fun n _ => by rw [State.source, hsrc, State.source])
    (by rw [State.AlarmsSound, halarms]; exact hinv.alarmsSound) (fun l => by rw [hstamp]; exact hinv.lineClk_le l)

theorem State.Inv.answer (hinv : s.Inv) (q : Reply) : (s.answer q).Inv :=
  hinv.of_eq rfl rfl rfl rfl rfl fun l => by cases l <;> rfl

theorem State.Inv.takeFault (hinv : s.Inv) (f : FaultCode) : (takeFault f s).Inv :=
  hinv.of_eq rfl rfl rfl rfl rfl fun l => by cases l <;> rfl

theorem State.Inv.setExternalAlarm {a : Nat} {al : Alarm} (hinv : s.Inv) (ha : 3 * s.cfg.nchip ≤ a) (hal : al.Sound) :
    (s.setAlarm a al).Inv :=
  hinv.elsewhere rfl rfl rfl List.length_set rfl (fun b hb => State.alarm_setAlarm_ne s al (by omega)) (fun _ _ => rfl)
    (hinv.alarmsSound.setAlarm a hal) (fun l => by rw [State.lineClk_setAlarm]; exact hinv.lineClk_le l)

theorem State.Inv.aggSet_external {n : Nat} {b : Bool} {e : Cycle} (hinv : s.Inv) (hn : s.cfg.nchip ≤ n)
    (he : e ≤ s.clk) : (aggSet n b e s).Inv := by
  refine hinv.elsewhere (aggSet_cfg ..) (aggSet_clk ..) (aggSet_chips ..) (by rw [aggSet_alarms])
    (by rw [aggSet_src, List.length_set]) (fun a _ => State.alarm_eq_of_alarms_eq (aggSet_alarms ..) a)
    (fun m hm => ?_) (by rw [State.AlarmsSound, aggSet_alarms]; exact hinv.alarmsSound) (fun l => ?_)
  · rw [State.source, aggSet_src]
    exact State.source_setSource_ne (s := s) b (by omega)
  · rcases State.lineClk_aggSet_cases n b e s l with hl | hl <;> rw [hl]
    · exact hinv.lineClk_le l
    · exact he

/-- The counter moves on: everything that was not after it still is not (40_counter_guard.md R100). -/
theorem State.Inv.advance {c : Cycle} (hinv : s.Inv) (hle : s.clk ≤ c) (hlt : c.toNat < neverNat) :
    State.Inv { s with clk := c } where
  cfg_wf := hinv.cfg_wf
  alarms_length := hinv.alarms_length
  src_length := hinv.src_length
  chips_length := hinv.chips_length
  clk_lt := hlt
  armed_lt := hinv.armed_lt
  disarmed_never := hinv.disarmed_never
  lineClk_le := fun l => BitVec.le_trans (show State.lineClk { s with clk := c } l ≤ s.clk by
    cases l <;> [exact hinv.lineClk_le .maskable; exact hinv.lineClk_le .urgent]) hle
  chip := fun k hk => by
    have h := hinv.chip k hk
    exact ChipInv.of_sound (s := { s with clk := c }) h.sound
      (fun x => (h.chan x).congr (s := s) (t := { s with clk := c }) rfl rfl rfl rfl) (BitVec.le_trans h.rc_le hle) h.lastRead_le h.source_eq
      h.tod_armed

/-! ### The rebase -/

theorem Chip.Sound.shifted {c : Chip} (h : c.Sound) : (c.shifted sub).Sound :=
  ⟨h.srBits_le, h.mask_low, h.flags_low, h.cra_strobe, h.crb_strobe, h.tod_masked, h.todAlarm_masked, h.todLatch_masked⟩

theorem ChanInv.shifted (h : ChanInv s k x) (hs : s.Shiftable sub) (hrc : sub ≤ (s.chip k).rc.toNat) :
    ChanInv (s.shifted sub r) k x := by
  have hchip : (s.shifted sub r).chip k = (s.chip k).shifted sub := State.chip_shifted s k
  have hrc' : ((s.shifted sub r).chip k).rc.toNat = (s.chip k).rc.toNat - sub := by
    rw [hchip]
    exact toNat_rebaseStamp sub _
  have hu : (((s.shifted sub r).chip k).chan x).u = shiftCycle sub ((s.chip k).chan x).u := by
    rw [hchip, Chip.chan_shifted]
    rfl
  have hcnt : (((s.shifted sub r).chip k).chan x).cnt = ((s.chip k).chan x).cnt := by
    rw [hchip, Chip.chan_shifted]
    rfl
  have hstate : ((s.shifted sub r).chip k).chanState x = (s.chip k).chanState x := by rw [hchip, Chip.chanState_shifted]
  by_cases hrun : (s.chip k).chanState x = .running
  · have hchan := hs.chan k x
    have hnat := toNat_shiftCycle hchan.u_ge (hchan.running_iff.mp hrun)
    have hafter := BitVec.lt_def.mp (h.running_after hrun)
    have hwindow := h.running_window hrun
    refine ChanInv.of_running (by rw [hstate, hrun]) ?_ ?_ ?_
    · rw [BitVec.lt_def, hrc', hu, hnat]
      omega
    · rw [State.alarm_shifted, h.running_armed hrun, hu]
      rfl
    · rw [hu, hnat, hrc', hcnt]
      omega
  · refine ChanInv.of_idle (by rwa [hstate]) ?_ ?_
    · rw [hu, h.idle_never hrun]
      rfl
    · rw [State.alarm_shifted, h.idle_disarmed hrun]
      rfl

theorem rebaseLastRead_le {l : Option Cycle} {c : Cycle} (h : ∀ e ∈ l, e ≤ c) :
    ∀ e ∈ rebaseLastRead sub l, e ≤ rebaseStamp sub c := by
  intro e he
  cases l with
  | none => cases he
  | some d =>
    have hd := BitVec.le_def.mp (h d rfl)
    rw [rebaseLastRead] at he
    split at he
    · cases he
      change rebaseStamp sub d ≤ rebaseStamp sub c
      rw [BitVec.le_def, toNat_rebaseStamp, toNat_rebaseStamp]
      omega
    · cases he

theorem ChipInv.shifted (h : ChipInv s k) (hs : s.Shiftable sub) (hrc : sub ≤ (s.chip k).rc.toNat) :
    ChipInv (s.shifted sub r) k := by
  have hchip : (s.shifted sub r).chip k = (s.chip k).shifted sub := State.chip_shifted s k
  refine ChipInv.of_sound (by rw [hchip]; exact h.sound.shifted) (fun x => (h.chan x).shifted hs hrc) ?_ ?_ ?_ ?_
  · have hle := BitVec.le_def.mp h.rc_le
    rw [hchip]
    change rebaseStamp sub (s.chip k).rc ≤ rebaseStamp sub s.clk
    rw [BitVec.le_def, toNat_rebaseStamp, toNat_rebaseStamp]
    omega
  · rw [hchip]
    exact rebaseLastRead_le h.lastRead_le
  · rw [hchip, Chip.summary_shifted]
    exact h.source_eq
  · rw [State.alarm_shifted]
    exact h.tod_armed

/-- The whole state on a time scale that starts `sub` cycles later, no chip's `rc` before the new origin
(40_counter_guard.md R105, R106). -/
theorem State.Inv.shifted (hinv : s.Inv) (hs : s.Shiftable sub) (hrc : ∀ k < s.cfg.nchip, sub ≤ (s.chip k).rc.toNat) :
    (s.shifted sub r).Inv where
  cfg_wf := hinv.cfg_wf
  alarms_length := List.length_map _ |>.trans hinv.alarms_length
  src_length := hinv.src_length
  chips_length := List.length_map _ |>.trans hinv.chips_length
  clk_lt := by
    rw [State.shifted_clk, toNat_rebaseStamp]
    exact Nat.lt_of_le_of_lt (Nat.sub_le _ _) hinv.clk_lt
  armed_lt := fun al hal harmed => by
    obtain ⟨old, hold, rfl⟩ := List.mem_map.mp hal
    have hshift := hs.alarm_of_mem hold
    have hlt := hinv.armed_lt old hold harmed
    change (shiftCycle sub old.target).toNat < neverNat
    rw [toNat_shiftCycle hshift.target_ge (hshift.armed_iff.mp harmed)]
    omega
  disarmed_never := fun al hal hdisarmed => by
    obtain ⟨old, hold, rfl⟩ := List.mem_map.mp hal
    change shiftCycle sub old.target = never
    rw [hinv.disarmed_never old hold hdisarmed]
    rfl
  lineClk_le := fun l => by
    have hle := BitVec.le_def.mp (hinv.lineClk_le l)
    rw [State.lineClk_shifted, State.shifted_clk, BitVec.le_def, toNat_rebaseStamp, toNat_rebaseStamp]
    omega
  chip := fun k hk => (hinv.chip k hk).shifted hs (hrc k hk)

/-- Every chip reconciled at `clk` before the rebase (40_counter_guard.md R105). -/
theorem inv_reconcileAll {n : Nat} (hinv : s.Inv) (hn : n ≤ s.cfg.nchip)
    (h : forUpTo (fun k s => updateTo k s.clk s) n s = .ok t) :
    t.Inv ∧ t.cfg = s.cfg ∧ t.clk = s.clk ∧ ∀ j < n, (t.chip j).rc = s.clk := by
  induction n generalizing t with
  | zero =>
    cases h
    exact ⟨hinv, rfl, rfl, fun _ hj => absurd hj (Nat.not_lt_zero _)⟩
  | succ n ih =>
    obtain ⟨u, hloop, hupdate⟩ := forUpTo_succ_eq_ok.mp h
    obtain ⟨hu, hcfg, hclk, hrc⟩ := ih (Nat.le_of_succ_le hn) hloop
    have hnu : n < u.cfg.nchip := by rw [hcfg]; omega
    have honly := OnlyChip.updateTo hupdate
    refine ⟨hu.updateTo hnu (BitVec.le_refl _) hupdate, honly.cfg.trans hcfg, honly.clk.trans hclk, fun j hj => ?_⟩
    by_cases hjn : j = n
    · rw [hjn, rc_updateTo (hu.chip_lt hnu) hupdate, hclk]
    · rw [honly.chip j hjn, hrc j (by omega)]

theorem State.Inv.guardRebase {q : Reply} (hinv : s.Inv) (h : guardRebase s = .ok (t, q)) : t.Inv := by
  obtain ⟨u, hall, h⟩ := bind_eq_ok.mp h
  obtain ⟨v, hrebase, h⟩ := bind_eq_ok.mp h
  cases h
  obtain ⟨hu, hcfg, hclk, hrc⟩ := inv_reconcileAll hinv (Nat.le_refl _) hall
  have hsub : s.clk.toNat - s.cfg.safeBase ≤ s.clk.toNat := Nat.sub_le _ _
  have hs := hu.shiftable (by rwa [hclk]) hrebase
  rw [hs.rebaseAll] at hrebase
  cases hrebase
  have hshifted : (u.shifted (s.clk.toNat - s.cfg.safeBase) u.resp).Inv :=
    hu.shifted hs fun k hk => by rw [hrc k (by rwa [hcfg] at hk)]; exact hsub
  exact hshifted.of_eq rfl rfl rfl rfl rfl fun l => by cases l <;> rfl

end

end Sys2Proof.Machine
end
section
/-! Every operation keeps the invariant, and so does every step (43_chip_timers.md R162). -/

namespace Sys2Proof.Machine

/-! ### The shapes of a body -/

/-- The body of an operation keeps the invariant wherever it completes. -/
def BodyKeepsInv (body : State → Result) : Prop := ∀ s s' r, s.Inv → body s = .ok (s', r) → s'.Inv

/-- So does the body of an operation on chip `k`, the chip selected. -/
def ChipKeepsInv (k : Nat) (body : State → Result) : Prop :=
  ∀ s s' r, s.Inv → k < s.cfg.nchip → body s = .ok (s', r) → s'.Inv

/-- So does the body of an access to chip `k`, the chip reconciled at `clk` (44_chip_icr_sdr_ports.md R231). -/
def AccessKeepsInv (k : Nat) (body : State → Result) : Prop :=
  ∀ s s' r, s.Inv → k < s.cfg.nchip → (s.chip k).rc = s.clk → body s = .ok (s', r) → s'.Inv

theorem bodyKeepsInv_reply (reply : State → Reply) : BodyKeepsInv fun s => .ok (s, reply s) := by
  intro s s' r hinv h
  cases h
  exact hinv

theorem bodyKeepsInv_check {check : State → Except FaultCode Unit} {body : State → Result}
    (hbody : BodyKeepsInv body) : BodyKeepsInv fun s => check s >>= fun _ => body s := by
  intro s s' r hinv h
  obtain ⟨-, -, h⟩ := bind_eq_ok.mp h
  exact hbody s s' r hinv h

theorem bodyKeepsInv_afterDispatch {body : State → Result} (hbody : BodyKeepsInv body) :
    BodyKeepsInv fun s => afterDispatch s body := by
  intro s s' r hinv h
  obtain ⟨s₁, n, hdispatch, h⟩ := afterDispatch_eq_ok.mp h
  exact hbody s₁ s' r (hinv.dispatch hdispatch) h

theorem bodyKeepsInv_onChip {k : Nat} {body : State → Result} (hbody : ChipKeepsInv k body) :
    BodyKeepsInv fun s => onChip k s body := by
  intro s s' r hinv h
  obtain ⟨hk, s₁, n, hdispatch, h⟩ := onChip_eq_ok.mp h
  exact hbody s₁ s' r (hinv.dispatch hdispatch) (by rwa [(DispatchKeeps.dispatch hdispatch).1.cfg]) h

theorem bodyKeepsInv_accessChip {k : Nat} {body : State → Result} (hbody : AccessKeepsInv k body) :
    BodyKeepsInv fun s => accessChip k s body := by
  intro s s' r hinv h
  obtain ⟨hk, s₁, n, hdispatch, s₂, hupdate, h⟩ := accessChip_eq_ok.mp h
  have hinv₁ := hinv.dispatch hdispatch
  have hk₁ : k < s₁.cfg.nchip := by rwa [(DispatchKeeps.dispatch hdispatch).1.cfg]
  have honly := OnlyChip.updateTo hupdate
  refine hbody s₂ s' r (hinv₁.updateTo hk₁ (BitVec.le_refl _) hupdate) (by rwa [honly.cfg]) ?_ h
  rw [rc_updateTo (hinv₁.chip_lt hk₁) hupdate, honly.clk]

theorem bodyKeepsInv_readChip (k : Nat) (value : State → Byte) : BodyKeepsInv (readChip k value) := by
  refine bodyKeepsInv_accessChip fun s s' r hinv _ _ h => ?_
  cases h
  exact hinv

theorem bodyKeepsInv_writeChip {k : Nat} {effect : State → State}
    (heffect : ∀ s, s.Inv → k < s.cfg.nchip → (effect s).Inv) : BodyKeepsInv (writeChip k effect) := by
  refine bodyKeepsInv_accessChip fun s s' r hinv hk _ h => ?_
  cases h
  exact heffect s hinv hk

theorem bodyKeepsInv_writeChipE {k : Nat} {effect : State → Except FaultCode State}
    (heffect : ∀ s s', s.Inv → k < s.cfg.nchip → (s.chip k).rc = s.clk → effect s = .ok s' → s'.Inv) :
    BodyKeepsInv (writeChipE k effect) := by
  refine bodyKeepsInv_accessChip fun s s' r hinv hk hrc h => ?_
  obtain ⟨t, ht, h⟩ := bind_eq_ok.mp h
  cases h
  exact heffect s _ hinv hk hrc ht

/-! ### Operations and steps -/

theorem perform_inv {body : State → Result} {s t : State} (hinv : s.Inv) (hbody : BodyKeepsInv body)
    (h : perform s body = .next t) : t.Inv := by
  cases hfault : s.fault with
  | some f =>
    rw [perform_of_fault hfault] at h
    cases h
    exact hinv.answer _
  | none =>
    rw [perform_of_none hfault] at h
    cases h
    cases hx : body s with
    | ok p => exact (hbody s p.1 p.2 hinv hx).answer p.2
    | error f => exact hinv.takeFault f

theorem bodyKeepsInv_setSourceOp (n : Nat) (b : Bool) (e : Cycle) : BodyKeepsInv (setSourceOp n b e) := by
  intro s s' r hinv h
  obtain ⟨_, hselect, h⟩ := bind_eq_ok.mp h
  obtain ⟨s₁, m, hdispatch, h⟩ := afterDispatch_eq_ok.mp h
  obtain ⟨_, hcycle, h⟩ := bind_eq_ok.mp h
  cases h
  have hn : s₁.cfg.nchip ≤ n := by
    rw [(DispatchKeeps.dispatch hdispatch).1.cfg]
    exact (selectExternalSource_eq_ok.mp hselect).2
  exact (hinv.dispatch hdispatch).aggSet_external hn (cycleNotFuture_eq_ok.mp hcycle)

theorem bodyKeepsInv_readTod (k : Nat) (i : TodField) : BodyKeepsInv (readTod k i) := by
  refine bodyKeepsInv_accessChip fun s s' r hinv hk _ h => ?_
  cases h
  exact hinv.todRead hk i

theorem execSnapRestore_inv {k : Nat} {s t : State} (hinv : s.Inv) (h : execSnapRestore k s = .next t) : t.Inv := by
  refine perform_inv hinv (bodyKeepsInv_check (bodyKeepsInv_onChip fun s s' r hinv hk h => ?_)) h
  split at h
  · cases h
    exact hinv
  · obtain ⟨u, hu, h⟩ := bind_eq_ok.mp h
    cases h
    exact hinv.restoreFrom hk hu

theorem execGuardTick_inv {s t : State} (hinv : s.Inv) (h : execGuardTick s = .next t) : t.Inv := by
  refine perform_inv hinv (bodyKeepsInv_afterDispatch fun s s' r hinv h => ?_) h
  split at h
  · exact hinv.guardRebase h
  · cases h
    exact hinv

theorem execClkAdvance_inv {n : BitVec 32} {s t : State} (hinv : s.Inv) (h : execClkAdvance n s = .next t) : t.Inv := by
  refine perform_inv hinv (fun s s' r hinv h => ?_) h
  obtain ⟨c, hc, h⟩ := bind_eq_ok.mp h
  cases h
  obtain ⟨hlt, rfl⟩ := cycleStore_eq_ok.mp hc
  have hnat := toNat_ofNat_cycle hlt
  exact hinv.advance (BitVec.le_def.mpr (by rw [hnat]; exact Nat.le_add_right _ _)) (by rwa [hnat])

theorem execAlarmSet_inv {a : Nat} {c : Cycle} {s t : State} (hinv : s.Inv) (h : execAlarmSet a c s = .next t) :
    t.Inv := by
  refine perform_inv hinv (fun s s' r hinv h => ?_) h
  obtain ⟨_, hselect, h⟩ := bind_eq_ok.mp h
  obtain ⟨u, hset, h⟩ := bind_eq_ok.mp h
  cases h
  obtain ⟨hlt, rfl⟩ := alarmSet_eq_ok.mp hset
  exact hinv.setExternalAlarm (selectExternalSlot_eq_ok.mp hselect).2 (Alarm.sound_armed_ofNat hlt)

theorem execAlarmUnset_inv {a : Nat} {s t : State} (hinv : s.Inv) (h : execAlarmUnset a s = .next t) : t.Inv := by
  refine perform_inv hinv (fun s s' r hinv h => ?_) h
  obtain ⟨_, hselect, h⟩ := bind_eq_ok.mp h
  cases h
  exact hinv.setExternalAlarm (selectExternalSlot_eq_ok.mp hselect).2 Alarm.sound_disarmed

theorem execDispatch_inv {s t : State} (hinv : s.Inv) (h : execDispatch s = .next t) : t.Inv := by
  refine perform_inv hinv (fun s s' r hinv h => ?_) h
  obtain ⟨p, hp, h⟩ := bind_eq_ok.mp h
  cases h
  exact hinv.dispatch hp

theorem execDomainReset_inv {s t : State} (hinv : s.Inv) (h : execDomainReset s = .next t) : t.Inv := by
  cases h
  cases hreset : domainReset s with
  | ok u => exact (inv_domainReset hinv.cfg_wf hreset).answer .nothing
  | error f => exact hinv.takeFault f

/-- An operation on a chip that is not opened by a reconciliation, with nothing returned. -/
theorem perform_onChip_effect_inv {k : Nat} {effect : State → Except FaultCode State} {s t : State} (hinv : s.Inv)
    (heffect : ∀ s s', s.Inv → k < s.cfg.nchip → effect s = .ok s' → s'.Inv)
    (h : perform s (fun s => onChip k s fun s => effect s >>= fun s' => .ok (s', .nothing)) = .next t) : t.Inv := by
  refine perform_inv hinv (bodyKeepsInv_onChip fun s s' r hinv hk h => ?_) h
  obtain ⟨u, hu, h⟩ := bind_eq_ok.mp h
  cases h
  exact heffect s _ hinv hk hu

theorem execChipUpdate_inv {k : Nat} {c : Cycle} {s t : State} (hinv : s.Inv) (h : execChipUpdate k c s = .next t) :
    t.Inv := by
  refine perform_inv hinv (bodyKeepsInv_onChip fun s s' r hinv hk h => ?_) h
  obtain ⟨_, hcycle, h⟩ := bind_eq_ok.mp h
  obtain ⟨u, hu, h⟩ := bind_eq_ok.mp h
  cases h
  exact hinv.updateTo hk (cycleNotFuture_eq_ok.mp hcycle) hu

/-- Every operation keeps the invariant (43_chip_timers.md R162). -/
theorem exec_inv {i : Instr} {s t : State} (hinv : s.Inv) (h : exec i s = .next t) : t.Inv := by
  cases i with
  | domainReset => exact execDomainReset_inv hinv h
  | chipReset k =>
    exact perform_onChip_effect_inv hinv (fun _ _ hinv hk h => hinv.chipReset hk (BitVec.le_refl _) h) h
  | clkAdvance n => exact execClkAdvance_inv hinv h
  | guardTick => exact execGuardTick_inv hinv h
  | clkRead => exact perform_inv hinv (bodyKeepsInv_reply fun s => .value s.clk) h
  | alarmNext => exact perform_inv hinv (bodyKeepsInv_reply fun s => .value s.nextDue) h
  | alarmRead a =>
    exact perform_inv hinv
      (bodyKeepsInv_check (check := selectSlot a) (bodyKeepsInv_reply fun s => .value (s.alarm a).target)) h
  | alarmSet a c => exact execAlarmSet_inv hinv h
  | alarmUnset a => exact execAlarmUnset_inv hinv h
  | dispatch => exact execDispatch_inv hinv h
  | irqAssert n e | irqDeassert n e => exact perform_inv hinv (bodyKeepsInv_setSourceOp n _ e) h
  | irqQuery l e =>
    exact perform_inv hinv (bodyKeepsInv_afterDispatch (bodyKeepsInv_check (bodyKeepsInv_reply _))) h
  | irqCpumask m =>
    refine perform_inv hinv (bodyKeepsInv_afterDispatch fun s s' r hinv h => ?_) h
    cases h
    exact hinv.of_eq rfl rfl rfl rfl rfl fun l => by cases l <;> rfl
  | irqStamp l => exact perform_inv hinv (bodyKeepsInv_afterDispatch (bodyKeepsInv_reply _)) h
  | chipReadPra k | chipReadPrb k | chipReadDdra k | chipReadDdrb k | chipReadTalo k | chipReadTahi k
  | chipReadTblo k | chipReadTbhi k | chipReadSdr k | chipReadCra k | chipReadCrb k | chipPeek k _ | portOut k _ =>
    exact perform_inv hinv (bodyKeepsInv_readChip k _) h
  | chipReadTod10 k | chipReadTodsec k | chipReadTodmin k | chipReadTodhr k =>
    exact perform_inv hinv (bodyKeepsInv_readTod k _) h
  | chipReadIcr k =>
    refine perform_inv hinv (bodyKeepsInv_accessChip fun s s' r hinv hk hrc h => ?_) h
    cases h
    exact hinv.clearFlags hk hrc
  | chipWritePra k v | chipWritePrb k v | chipWriteDdra k v | chipWriteDdrb k v =>
    exact perform_inv hinv (bodyKeepsInv_writeChip fun s hinv hk => hinv.setPorts hk rfl) h
  | chipWriteSdr k v => exact perform_inv hinv (bodyKeepsInv_writeChip fun s hinv hk => hinv.writeSdr hk v) h
  | chipWriteTalo k v | chipWriteTahi k v | chipWriteTblo k v | chipWriteTbhi k v =>
    exact perform_inv hinv (bodyKeepsInv_writeChipE fun s s' hinv hk hrc h => hinv.writeLatchByte hk hrc h) h
  | chipWriteTod10 k v | chipWriteTodsec k v | chipWriteTodmin k v | chipWriteTodhr k v =>
    exact perform_inv hinv (bodyKeepsInv_writeChip fun s hinv hk => hinv.todWrite hk _ v) h
  | chipWriteIcr k v => exact perform_inv hinv (bodyKeepsInv_writeChip fun s hinv hk => hinv.writeMask hk v) h
  | chipWriteCra k v | chipWriteCrb k v =>
    exact perform_inv hinv (bodyKeepsInv_writeChipE fun s s' hinv hk hrc h => hinv.writeControl hk hrc h) h
  | chipUpdate k c => exact execChipUpdate_inv hinv h
  | portIn k p v =>
    refine perform_inv hinv (bodyKeepsInv_onChip fun s s' r hinv hk h => ?_) h
    cases h
    exact hinv.setPortIn hk p v
  | extPulse k => exact perform_inv hinv (bodyKeepsInv_writeChip fun s hinv hk => hinv.pulseChannels hk) h
  | snapSave k =>
    refine perform_inv hinv (bodyKeepsInv_check (bodyKeepsInv_accessChip fun s s' r hinv _ _ h => ?_)) h
    cases h
    exact hinv
  | snapRestore k => exact execSnapRestore_inv hinv h

/-- Settles O13: an idle step changes nothing, and any other takes one operation from the port and runs it, which keeps the
invariant (`exec_inv`). -/
theorem stepKeepsInvariant : Obligations.StepKeepsInvariant := by
  unfold Obligations.StepKeepsInvariant
  intro s t hinv h
  cases hport : s.port with
  | nil =>
    rw [step_of_port_nil hport] at h
    cases h
    exact hinv
  | cons p rest =>
    have htaken : State.Inv { s with port := rest, payloadIn := p.payload } :=
      hinv.of_eq rfl rfl rfl rfl rfl fun l => by cases l <;> rfl
    cases hdecode : decode p.word with
    | ok i =>
      rw [step_of_decode_ok hport hdecode] at h
      exact exec_inv htaken h
    | error e =>
      rw [step_of_decode_error hport hdecode] at h
      exact perform_inv (body := fun _ => .error .illegalOp) htaken (fun _ _ _ _ h => nomatch h) h

end Sys2Proof.Machine
end

section
/-! Reconciliation is idempotent (43_chip_timers.md R167): what it has caught up is not due, and the live values it has
stored are live again. -/

namespace Sys2Proof.Machine

section
variable {k : Nat} {x : Channel} {c : Cycle} {s t : State}

theorem Chip.not_underflowDue {chip : Chip} (h : chip.chanState x = .running → c < (chip.chan x).u) :
    ¬chip.UnderflowDue x c := fun hdue => Nat.not_lt.mpr (BitVec.le_def.mp hdue.2) (BitVec.lt_def.mp (h hdue.1))

theorem Chip.lt_of_not_underflowDue {chip : Chip} (h : ¬chip.UnderflowDue x c) (hrun : chip.chanState x = .running) :
    c < (chip.chan x).u := BitVec.lt_def.mpr (Nat.lt_of_not_le fun hle => h ⟨hrun, hle⟩)

/-- A channel that has taken its underflows is not due (43_chip_timers.md R163). -/
theorem not_due_takeUnderflows (hk : k < s.chips.length) (hdue : (s.chip k).UnderflowDue x c)
    (hfits : (s.chip k).oneShot x = true ∨ (s.chip k).rescheduled x c < neverNat) :
    ¬((takeUnderflows k x c s).chip k).UnderflowDue x c := by
  rw [chip_takeUnderflows hk]
  refine Chip.not_underflowDue fun hrun => ?_
  rw [Chip.chanState, Chip.ctl_setChan, Chip.ctl_setCtl, Chip.ctlAfter] at hrun
  rw [Chip.chan_setChan]
  cases hshot : (s.chip k).oneShot x with
  | true =>
    rw [hshot, if_pos rfl, ctlState_clearStart] at hrun
    cases hrun
  | false =>
    have hlt := hfits.resolve_left (by simp [hshot])
    have hnat : ((s.chip k).uAfter x c).toNat = (s.chip k).rescheduled x c := by
      rw [Chip.uAfter, hshot]
      exact toNat_ofNat_cycle hlt
    change c < (s.chip k).uAfter x c
    rw [BitVec.lt_def, hnat]
    exact (Chip.rescheduled_bounds hdue hshot).1

theorem KeepsSchedule.not_due (h : KeepsSchedule k s t) (hs : ¬(s.chip k).UnderflowDue x c) :
    ¬(t.chip k).UnderflowDue x c := fun hdue =>
  hs ⟨(h.running x).mp hdue.1, by rw [← h.u x]; exact hdue.2⟩

theorem not_due_chanCatchUp (hk : k < s.chips.length) (h : chanCatchUp k x c s = .ok t) :
    ¬(t.chip k).UnderflowDue x c := by
  rcases chanCatchUp_cases h with ⟨hnot, rfl⟩ | ⟨hdue, hfits, rfl⟩
  · exact hnot
  · exact (KeepsSchedule.underflowEffects k x _ _ _ _).not_due (not_due_takeUnderflows hk hdue hfits)

/-- After a reconciliation no channel is due, and every live value is the stored one (43_chip_timers.md R167). -/
theorem reconciled_updateTo (hk : k < s.chips.length) (h : updateTo k c s = .ok t) (x : Channel) :
    ¬(t.chip k).UnderflowDue x c ∧ ((t.chip k).chan x).cnt = (t.chip k).live x c := by
  obtain ⟨-, s₁, s₂, hA, hB, rfl⟩ := updateTo_eq_ok.mp h
  have hk₁ : k < s₁.chips.length := by rwa [(OnlyChip.chanCatchUp hA).chips_length]
  have hk₂ : k < s₂.chips.length := by rwa [(OnlyChip.chanCatchUp hB).chips_length]
  have hdue : ¬(s₂.chip k).UnderflowDue x c := by
    cases x with
    | A =>
      have hapart : ApartFrom k .A c s₁ s₂ :=
        ApartFrom.chanCatchUp (y := .A) (by decide) hk₁ (fun hcasc => nomatch hcasc.1) hB
      rw [Chip.underflowDue_congr hapart.chan hapart.ctl]
      exact not_due_chanCatchUp hk hA
    | B => exact not_due_chanCatchUp hk₁ hB
  refine ⟨(KeepsSchedule.storeLive k c s₂).not_due hdue, ?_⟩
  rw [live_storeLive hk₂, chan_storeLive hk₂]

/-- Storing what is stored changes nothing (43_chip_timers.md R166). -/
theorem storeLive_of_stored (hk : k < s.chips.length) (hrc : (s.chip k).rc = c)
    (hlive : ∀ x, ((s.chip k).chan x).cnt = (s.chip k).live x c) : storeLive k c s = s := by
  have hA : { (s.chip k).chanA with cnt := (s.chip k).live .A c } = (s.chip k).chanA := by rw [← hlive .A]; rfl
  have hB : { (s.chip k).chanB with cnt := (s.chip k).live .B c } = (s.chip k).chanB := by rw [← hlive .B]; rfl
  have hchip : { s.chip k with
      chanA := { (s.chip k).chanA with cnt := (s.chip k).live .A c }
      chanB := { (s.chip k).chanB with cnt := (s.chip k).live .B c }
      rc := c } = s.chip k := by rw [hA, hB, ← hrc]
  exact (congrArg (s.setChip k) hchip).trans (State.setChip_chip_self s hk)

end

/-- Settles O49: after a reconciliation no channel is due and the live values are stored (`reconciled_updateTo`), so that
another at the same cycle stores what is there. -/
theorem updateToIsIdempotent : Obligations.UpdateToIsIdempotent := by
  unfold Obligations.UpdateToIsIdempotent
  intro s t k c hk h
  have hreconciled := reconciled_updateTo hk h
  have hkt : k < t.chips.length := by rwa [(OnlyChip.updateTo h).chips_length]
  have hrc := rc_updateTo hk h
  have hlater (x : Channel) (hrun : (t.chip k).chanState x = .running) : c < ((t.chip k).chan x).u :=
    Chip.lt_of_not_underflowDue (hreconciled x).1 hrun
  refine ⟨?_, hrc, fun x hrun => ⟨hlater x hrun, (hreconciled x).2⟩⟩
  rw [updateTo_idle (BitVec.le_of_eq hrc) hlater, storeLive_of_stored hkt hrc fun x => (hreconciled x).2]

end Sys2Proof.Machine
end

section
/-! The closed form of the count events of channel B (43_chip_timers.md R165): of the chip (`Chip.countB_iterate_of_lt`,
`Chip.countB_iterate_oneShot`, `Chip.countB_iterate_continuous`), and of the state, whose line the first underflow
updates and the others leave alone (`countLoop_eq`). -/

namespace Sys2Proof.Machine

section
variable {won : Bool} {mode : ChanState} {c : Chip}

/-! ### The chip -/

/-- The count event that first brings channel B to 0: a counter at 0 underflows as one at 1 does (43_chip_timers.md
R165). -/
def Chip.firstUnderflow (c : Chip) : Nat := max c.chanB.cnt.toNat 1

theorem Chip.firstUnderflow_pos (c : Chip) : 0 < c.firstUnderflow := Nat.le_max_right _ _

/-- Channel B as it counts, its counter and toggle given. -/
def Chip.countedB (c : Chip) (cnt : Count) (toggle : Bool) : Chip :=
  { c with chanB := { c.chanB with cnt := cnt, toggle := toggle } }

theorem Chip.countB_of_gt (hmode : c.chanState .B = mode) (h : 1 < c.chanB.cnt.toNat) :
    c.countB won mode = c.countedB (c.chanB.cnt - 1) c.chanB.toggle := by
  rw [Chip.countB_of_state hmode]
  exact Chip.countOnce_of_gt (x := .B) h

theorem Chip.countB_of_le (hmode : c.chanState .B = mode) (h : c.chanB.cnt.toNat ≤ 1) :
    c.countB won mode = (c.reload .B).flagged won (flagOf .B) := by
  rw [Chip.countB_of_state hmode]
  exact Chip.countOnce_of_le (x := .B) h

/-- Before the first underflow the counter goes down by one at each event. -/
theorem Chip.countB_iterate_of_lt (hmode : c.chanState .B = mode) {n : Nat} (hn : n < c.firstUnderflow) :
    (Chip.countB won mode)^[n] c = c.countedB (BitVec.ofNat 16 (c.chanB.cnt.toNat - n)) c.chanB.toggle := by
  induction n with
  | zero => simp [Chip.countedB]
  | succ n ih =>
    have hcnt : n + 2 ≤ c.chanB.cnt.toNat := by
      unfold Chip.firstUnderflow at hn
      omega
    have hlt := c.chanB.cnt.isLt
    rw [Function.iterate_succ_apply', ih (by omega), Chip.countB_of_gt (by exact hmode)]
    · refine congrArg (c.countedB · c.chanB.toggle) ?_
      change BitVec.ofNat 16 (c.chanB.cnt.toNat - n) - 1 = _
      bv_omega
    · change 1 < (BitVec.ofNat 16 (c.chanB.cnt.toNat - n)).toNat
      rw [BitVec.toNat_ofNat, Nat.mod_eq_of_lt (by omega)]
      omega

/-- The first underflow (43_chip_timers.md R165). -/
theorem Chip.countB_iterate_first (hmode : c.chanState .B = mode) :
    (Chip.countB won mode)^[c.firstUnderflow] c = (c.reload .B).flagged won (flagOf .B) := by
  obtain ⟨m, hm⟩ := Nat.exists_eq_succ_of_ne_zero (Nat.ne_of_gt c.firstUnderflow_pos)
  have hle : c.chanB.cnt.toNat - m ≤ 1 := by
    unfold Chip.firstUnderflow at hm
    omega
  have hlt := c.chanB.cnt.isLt
  rw [hm, Function.iterate_succ_apply', Chip.countB_iterate_of_lt hmode (by omega), Chip.countB_of_le (by exact hmode)]
  · rfl
  · change (BitVec.ofNat 16 (c.chanB.cnt.toNat - m)).toNat ≤ 1
    rw [BitVec.toNat_ofNat, Nat.mod_eq_of_lt (by omega)]
    exact hle

theorem Chip.reloadB_eq (c : Chip) :
    c.reload .B = { c.countedB c.chanB.latch (!c.chanB.toggle) with crb := c.ctlAfter .B } := rfl

/-- A one-shot channel stops at its first underflow and counts no more (43_chip_timers.md R165). -/
theorem Chip.countB_iterate_oneShot (hmode : c.chanState .B = mode) (hcounts : mode ≠ .stopped)
    (hshot : c.oneShot .B = true) {n : Nat} (hn : c.firstUnderflow ≤ n) :
    (Chip.countB won mode)^[n] c =
      { c.countedB c.chanB.latch (!c.chanB.toggle) with
        crb := clearStart c.crb
        flags := c.flags ||| addedFlag won (flagOf .B) } := by
  obtain ⟨j, rfl⟩ := Nat.exists_eq_add_of_le' hn
  have hstopped : ((c.reload .B).flagged won (flagOf .B)).chanState .B ≠ mode := by
    change ctlState .B (c.ctlAfter .B) ≠ mode
    rw [Chip.ctlAfter, hshot, if_pos rfl, ctlState_clearStart]
    exact hcounts.symm
  rw [Function.iterate_add_apply, Chip.countB_iterate_first hmode, Chip.countB_iterate_of_other_state hstopped,
    Chip.reloadB_eq, Chip.ctlAfter, hshot]
  rfl

/-- The next count within a period of `Q`, and whether it begins another. -/
theorem succ_mod_div (j : Nat) {Q : Nat} (hQ : 0 < Q) :
    (j % Q + 1 = Q ∧ (j + 1) % Q = 0 ∧ (j + 1) / Q = j / Q + 1) ∨
      (j % Q + 1 < Q ∧ (j + 1) % Q = j % Q + 1 ∧ (j + 1) / Q = j / Q) := by
  have hdiv := Nat.div_add_mod j Q
  have hlt := Nat.mod_lt j hQ
  rcases Nat.lt_or_eq_of_le (Nat.succ_le_of_lt hlt) with h | h
  · refine .inr ⟨h, ?_⟩
    have hj : j + 1 = Q * (j / Q) + (j % Q + 1) := by omega
    refine ⟨?_, ?_⟩
    · conv_lhs => rw [hj]
      rw [Nat.mul_add_mod, Nat.mod_eq_of_lt h]
    · conv_lhs => rw [hj]
      rw [Nat.mul_add_div hQ, Nat.div_eq_of_lt h, Nat.add_zero]
  · refine .inl ⟨h, ?_⟩
    have hj : j + 1 = Q * (j / Q + 1) := by
      rw [Nat.mul_add]
      omega
    refine ⟨?_, ?_⟩
    · rw [hj, Nat.mul_mod_right]
    · conv_lhs => rw [hj]
      rw [Nat.mul_div_cancel_left _ hQ]

theorem flip_of_parity (m : Nat) (b : Bool) :
    (!(if m % 2 = 1 then !b else b)) = if (m + 1) % 2 = 1 then !b else b := by
  rcases Nat.mod_two_eq_zero_or_one m with h | h
  · rw [if_neg (by omega), if_pos (by omega)]
  · rw [if_pos h, if_neg (by omega), Bool.not_not]

/-- An underflow of a continuous channel sets the flag, again and again (43_chip_timers.md R165). -/
theorem Chip.countB_flagged_of_le {cnt : Count} {toggle : Bool} (hmode : c.chanState .B = mode)
    (hshot : c.oneShot .B = false) (h : cnt.toNat ≤ 1) :
    ((c.countedB cnt toggle).flagged won (flagOf .B)).countB won mode =
      (c.countedB c.chanB.latch (!toggle)).flagged won (flagOf .B) := by
  have hcrb : ((c.countedB cnt toggle).flagged won (flagOf .B)).ctlAfter .B = c.crb := by
    change (if c.oneShot .B then clearStart c.crb else c.crb) = c.crb
    rw [hshot]
    rfl
  have hflags (v b : Byte) : (v ||| b) ||| b = v ||| b := by rw [BitVec.or_assoc, BitVec.or_self]
  rw [Chip.countB_of_le (by exact hmode) (by exact h), Chip.reloadB_eq, hcrb]
  exact congrArg (fun flags => { c.countedB c.chanB.latch (!toggle) with flags := flags }) (hflags _ _)

/-- A continuous channel after its first underflow: it underflows every `max(latch, 1)` events (43_chip_timers.md
R165). -/
theorem Chip.countB_iterate_continuous (hmode : c.chanState .B = mode) (hshot : c.oneShot .B = false) {n : Nat}
    (hn : c.firstUnderflow ≤ n) :
    (Chip.countB won mode)^[n] c =
      (c.countedB (BitVec.ofNat 16 (c.chanB.latch.toNat - (n - c.firstUnderflow) % max c.chanB.latch.toNat 1))
        (if (1 + (n - c.firstUnderflow) / max c.chanB.latch.toNat 1) % 2 = 1 then !c.chanB.toggle
          else c.chanB.toggle)).flagged won (flagOf .B) := by
  obtain ⟨j, rfl⟩ := Nat.exists_eq_add_of_le' hn
  clear hn
  rw [Nat.add_sub_cancel, Function.iterate_add_apply, Chip.countB_iterate_first hmode, Chip.reloadB_eq, Chip.ctlAfter,
    hshot, if_neg Bool.false_ne_true]
  have hQ : 0 < max c.chanB.latch.toNat 1 := Nat.le_max_right _ _
  have hlatch := c.chanB.latch.isLt
  induction j with
  | zero => simp [Chip.countedB, Chip.flagged, Chip.ctl]
  | succ j ih =>
    have hcnt : (BitVec.ofNat 16 (c.chanB.latch.toNat - j % max c.chanB.latch.toNat 1)).toNat =
        c.chanB.latch.toNat - j % max c.chanB.latch.toNat 1 := by
      rw [BitVec.toNat_ofNat, Nat.mod_eq_of_lt (by omega)]
    rw [Function.iterate_succ_apply', ih]
    rcases succ_mod_div j hQ with ⟨hlast, hmod, hdiv⟩ | ⟨hmore, hmod, hdiv⟩
    · rw [Chip.countB_flagged_of_le hmode hshot (by omega), hmod, hdiv, Nat.sub_zero, BitVec.ofNat_toNat,
        BitVec.setWidth_eq, flip_of_parity, Nat.add_assoc]
    · have hnext : BitVec.ofNat 16 (c.chanB.latch.toNat - j % max c.chanB.latch.toNat 1) - 1 =
          BitVec.ofNat 16 (c.chanB.latch.toNat - (j % max c.chanB.latch.toNat 1 + 1)) := by
        generalize j % max c.chanB.latch.toNat 1 = r at *
        bv_omega
      rw [Chip.countB_of_gt (by exact hmode), hmod, hdiv, ← hnext]
      · rfl
      · change 1 < (BitVec.ofNat 16 (c.chanB.latch.toNat - j % max c.chanB.latch.toNat 1)).toNat
        omega

end

end Sys2Proof.Machine
end

section
/-! The count events of channel B in the state (43_chip_timers.md R164, R165): the first underflow updates the line, the
others only count (`countLoop_of_lt`, `countLoop_of_le`). -/

namespace Sys2Proof.Machine

section
variable {won : Bool} {mode : ChanState} {c : Chip} {k n m e0 P : Nat} {e : Cycle} {s : State}

/-! ### A line that needs no update -/

/-- Nothing is left to do for the line of chip `k` (44_chip_icr_sdr_ports.md R214). -/
def Settled (k : Nat) (s : State) : Prop := ∀ e, updateLine k e s = s

theorem aggSet_of_le {n : Nat} {b : Bool} (h : s.src.length ≤ n) : aggSet n b e s = s := by
  have hset : s.setSource n b = s := by
    unfold State.setSource
    rw [List.set_eq_of_length_le h]
  have hrises : s.rises n b = false := by
    rw [State.rises, hset, Bool.not_and_self]
  rw [aggSet, hrises, hset, if_neg Bool.false_ne_true]

theorem settled_updateLine (hk : k < s.chips.length) : Settled k (updateLine k e s) := by
  intro e'
  by_cases hsrc : k < s.src.length
  · have ht := tracked_updateLine e hk hsrc
    exact aggSet_self e' ht.source_eq ht.src_lt
  · have hle : s.src.length ≤ k := Nat.not_lt.mp hsrc
    rw [show updateLine k e s = s from aggSet_of_le hle]
    exact aggSet_of_le hle

theorem Settled.setChip (h : Settled k s) (hk : k < s.chips.length) (hsum : c.summary = (s.chip k).summary) :
    Settled k (s.setChip k c) := by
  intro e
  rw [updateLine_setChip_eq hk, hsum, show aggSet k (s.chip k).summary e s = s from h e]

/-- A flag that is set already (44_chip_icr_sdr_ports.md R210). -/
theorem setFlag_of_flag_set {bit : Byte} (h : Settled k s) (hk : k < s.chips.length)
    (hflag : (s.chip k).flags ||| bit = (s.chip k).flags) : setFlag k bit e s = s := by
  cases hwon : readWon k e s with
  | true => exact setFlag_of_readWon hwon
  | false => rw [setFlag_of_not_readWon hwon, hflag, State.setChip_chip_self s hk, h e]

/-! ### One count event -/

theorem stopOneShot_setChan_eq {x : Channel} (hk : k < s.chips.length) :
    stopOneShot k x (s.setChan k x
      { (s.chip k).chan x with cnt := ((s.chip k).chan x).latch, toggle := !((s.chip k).chan x).toggle }) =
      s.setChip k ((s.chip k).reload x) := by
  generalize hch : { (s.chip k).chan x with cnt := ((s.chip k).chan x).latch, toggle := !((s.chip k).chan x).toggle } = ch
  have hchip : (s.setChan k x ch).chip k = (s.chip k).setChan x ch := State.chip_setChip_self s _ hk
  have hshot : ((s.chip k).setChan x ch).oneShot x = (s.chip k).oneShot x := by cases x <;> rfl
  have hctl : ((s.chip k).setChan x ch).ctl x = (s.chip k).ctl x := by cases x <;> rfl
  unfold stopOneShot Chip.reload Chip.ctlAfter State.setCtl
  rw [hchip, hshot, hctl, hch]
  split
  · exact State.setChip_setChip s k _ _
  · rw [← hctl, Chip.setCtl_ctl_self]
    rfl

theorem countOne_of_gt {underflow : State → State} {x : Channel} (h : 1 < ((s.chip k).chan x).cnt.toNat) :
    countOne underflow k x s =
      s.setChan k x { (s.chip k).chan x with cnt := ((s.chip k).chan x).cnt - 1 } := by
  have hne : ¬countDown ((s.chip k).chan x).cnt = 0 := fun hzero =>
    absurd ((countDown_eq_zero_iff _).mp hzero) (Nat.not_le.mpr h)
  unfold countOne
  rw [if_neg hne, countDown_of_gt h]

theorem countOne_of_le {underflow : State → State} {x : Channel} (hk : k < s.chips.length)
    (h : ((s.chip k).chan x).cnt.toNat ≤ 1) :
    countOne underflow k x s = underflow (s.setChip k ((s.chip k).reload x)) := by
  unfold countOne
  rw [if_pos ((countDown_eq_zero_iff _).mpr h), stopOneShot_setChan_eq hk]

/-- Once the flag is set a count event of channel B changes the chip alone. -/
theorem countOne_of_flag_set (h : Settled k s) (hk : k < s.chips.length) (hmode : (s.chip k).chanState .B = mode)
    (hflag : (s.chip k).flags ||| flagOf .B = (s.chip k).flags) :
    countOne (underflowEffectsB k e0) k .B s = s.setChip k ((s.chip k).countB false mode) := by
  rcases Nat.lt_or_ge 1 ((s.chip k).chan .B).cnt.toNat with hgt | hle
  · rw [countOne_of_gt hgt, Chip.countB_of_gt hmode hgt]
    rfl
  · have hchip : (s.setChip k ((s.chip k).reload .B)).chip k = (s.chip k).reload .B := State.chip_setChip_self s _ hk
    have hflagged : ((s.chip k).reload .B).flagged false (flagOf .B) = (s.chip k).reload .B :=
      congrArg (fun flags => { (s.chip k).reload .B with flags := flags }) hflag
    rw [countOne_of_le hk hle, Chip.countB_of_le hmode hle, hflagged]
    refine setFlag_of_flag_set (h.setChip hk ?_) (by simpa using hk) (by rw [hchip]; exact hflag)
    rfl

/-! ### The loop -/

theorem Chip.countB_flags (hflag : c.flags ||| flagOf .B = c.flags) : (c.countB false mode).flags = c.flags := by
  unfold Chip.countB Chip.countOnce
  split
  · split
    · exact hflag
    · rfl
  · rfl

theorem Chip.countB_mask : (c.countB won mode).mask = c.mask := by
  unfold Chip.countB Chip.countOnce
  split
  · split <;> rfl
  · rfl

theorem countLoop_of_flag_set (h : Settled k s) (hk : k < s.chips.length)
    (hflag : (s.chip k).flags ||| flagOf .B = (s.chip k).flags) (n : Nat) :
    countLoop (underflowEffectsB k) k .B mode P n e0 s =
      s.setChip k ((Chip.countB false mode)^[n] (s.chip k)) := by
  induction n generalizing s e0 with
  | zero => exact (State.setChip_chip_self s hk).symm
  | succ n ih =>
    unfold countLoop
    by_cases hmode : (s.chip k).chanState .B = mode
    case neg => rw [if_pos hmode, Chip.countB_iterate_of_other_state hmode, State.setChip_chip_self s hk]
    case pos =>
      have hchip : (s.setChip k ((s.chip k).countB false mode)).chip k = (s.chip k).countB false mode :=
        State.chip_setChip_self s _ hk
      have hflags := Chip.countB_flags (mode := mode) hflag
      rw [if_neg (not_not_intro hmode), countOne_of_flag_set h hk hmode hflag, ih, hchip, State.setChip_setChip]
      · rfl
      · exact h.setChip hk (by rw [Chip.summary, hflags, Chip.countB_mask, Chip.summary])
      · simpa using hk
      · rw [hchip, hflags, hflag]

theorem countLoop_add {underflow : Nat → State → State} {x : Channel} (n m : Nat) :
    countLoop underflow k x mode P (n + m) e0 s =
      countLoop underflow k x mode P m (e0 + n * P) (countLoop underflow k x mode P n e0 s) := by
  induction n generalizing s e0 with
  | zero => simp [countLoop]
  | succ n ih =>
    rw [Nat.succ_add, countLoop, countLoop]
    by_cases hmode : (s.chip k).chanState x = mode
    case neg =>
      rw [if_pos hmode, if_pos hmode]
      cases m with
      | zero => rfl
      | succ m => rw [countLoop, if_pos hmode]
    case pos =>
      rw [if_neg (not_not_intro hmode), if_neg (not_not_intro hmode), ih, Nat.succ_mul, Nat.add_assoc e0, Nat.add_comm P]

theorem countLoop_of_lt (hk : k < s.chips.length) (hmode : (s.chip k).chanState .B = mode)
    (hn : n < (s.chip k).firstUnderflow) :
    countLoop (underflowEffectsB k) k .B mode P n e0 s =
      s.setChip k ((s.chip k).countedB (BitVec.ofNat 16 ((s.chip k).chanB.cnt.toNat - n)) (s.chip k).chanB.toggle) := by
  rw [← Chip.countB_iterate_of_lt (won := false) hmode hn]
  induction n with
  | zero => exact (State.setChip_chip_self s hk).symm
  | succ n ih =>
    have hcnt : n + 2 ≤ (s.chip k).chanB.cnt.toNat := by
      unfold Chip.firstUnderflow at hn
      omega
    have hlt := (s.chip k).chanB.cnt.isLt
    have hchip (c : Chip) : (s.setChip k c).chip k = c := State.chip_setChip_self s c hk
    have hiter := Chip.countB_iterate_of_lt (won := false) hmode (Nat.lt_of_succ_lt hn)
    have hstate : ((Chip.countB false mode)^[n] (s.chip k)).chanState .B = mode := by
      rw [hiter]
      exact hmode
    have hgt : 1 < ((Chip.countB false mode)^[n] (s.chip k)).chanB.cnt.toNat := by
      rw [hiter]
      change 1 < (BitVec.ofNat 16 ((s.chip k).chanB.cnt.toNat - n)).toNat
      rw [BitVec.toNat_ofNat, Nat.mod_eq_of_lt (by omega)]
      omega
    rw [countLoop_add n 1, ih (by omega), countLoop, hchip, if_neg (not_not_intro hstate), countLoop,
      countOne_of_gt (by rw [hchip]; exact hgt), hchip, Function.iterate_succ_apply', Chip.countB_of_gt hstate hgt,
      State.setChan, hchip, State.setChip_setChip]
    rfl

/-- The first underflow sets the flag at its cycle (43_chip_timers.md R164, R165). -/
theorem countLoop_first (hk : k < s.chips.length) (hmode : (s.chip k).chanState .B = mode)
    (hwon : readWon k (BitVec.ofNat 32 (e0 + ((s.chip k).firstUnderflow - 1) * P)) s = false) :
    countLoop (underflowEffectsB k) k .B mode P (s.chip k).firstUnderflow e0 s =
      updateLine k (BitVec.ofNat 32 (e0 + ((s.chip k).firstUnderflow - 1) * P))
        (s.setChip k (((s.chip k).reload .B).flagged false (flagOf .B))) := by
  obtain ⟨j, hj⟩ := Nat.exists_eq_succ_of_ne_zero (Nat.ne_of_gt (s.chip k).firstUnderflow_pos)
  rw [hj, Nat.succ_sub_one] at hwon ⊢
  have hlt := (s.chip k).chanB.cnt.isLt
  have hcnt : (s.chip k).chanB.cnt.toNat - j ≤ 1 := by
    unfold Chip.firstUnderflow at hj
    omega
  generalize hd : (s.chip k).countedB (BitVec.ofNat 16 ((s.chip k).chanB.cnt.toNat - j)) (s.chip k).chanB.toggle = d
  have hchip (c : Chip) : (s.setChip k c).chip k = c := State.chip_setChip_self s c hk
  have hk' : k < (s.setChip k d).chips.length := by simpa using hk
  have hstate : d.chanState .B = mode := by rw [← hd]; exact hmode
  have hle : (d.chan .B).cnt.toNat ≤ 1 := by
    rw [← hd]
    change (BitVec.ofNat 16 ((s.chip k).chanB.cnt.toNat - j)).toNat ≤ 1
    rw [BitVec.toNat_ofNat, Nat.mod_eq_of_lt (by omega)]
    exact hcnt
  have hreload : d.reload .B = (s.chip k).reload .B := by rw [← hd]; rfl
  rw [Nat.succ_eq_add_one, countLoop_add j 1, countLoop_of_lt hk hmode (by omega), hd, countLoop, hchip,
    if_neg (not_not_intro hstate), countLoop, countOne_of_le hk' (by rw [hchip]; exact hle), hchip, hreload,
    State.setChip_setChip, underflowEffectsB, setFlag_of_not_readWon, hchip, State.setChip_setChip]
  · rfl
  · rwa [readWon_setChip hk (by rfl)]

theorem Chip.countB_iterate_flags (hflag : c.flags ||| flagOf .B = c.flags) (n : Nat) :
    ((Chip.countB false mode)^[n] c).flags = c.flags ∧ ((Chip.countB false mode)^[n] c).mask = c.mask := by
  induction n generalizing c with
  | zero => exact ⟨rfl, rfl⟩
  | succ n ih =>
    have hflags := Chip.countB_flags (mode := mode) hflag
    obtain ⟨hf, hm⟩ := ih (c := c.countB false mode) (by rw [hflags, hflag])
    exact ⟨hf.trans hflags, hm.trans Chip.countB_mask⟩

theorem Chip.countB_iterate_flags_of_le (hmode : c.chanState .B = mode) (hn : c.firstUnderflow ≤ n) :
    ((Chip.countB false mode)^[n] c).flags = c.flags ||| flagOf .B ∧ ((Chip.countB false mode)^[n] c).mask = c.mask := by
  obtain ⟨i, rfl⟩ := Nat.exists_eq_add_of_le' hn
  rw [Function.iterate_add_apply, Chip.countB_iterate_first hmode]
  refine Chip.countB_iterate_flags ?_ i
  change (c.flags ||| flagOf .B) ||| flagOf .B = c.flags ||| flagOf .B
  rw [BitVec.or_assoc, BitVec.or_self]

/-- The first underflow sets the flag at its cycle, the line follows; the count events after it change the chip alone
(43_chip_timers.md R164, R165; 44_chip_icr_sdr_ports.md R214). -/
theorem countLoop_of_le (hk : k < s.chips.length) (hmode : (s.chip k).chanState .B = mode)
    (hwon : readWon k (BitVec.ofNat 32 (e0 + ((s.chip k).firstUnderflow - 1) * P)) s = false)
    (hn : (s.chip k).firstUnderflow ≤ n) :
    countLoop (underflowEffectsB k) k .B mode P n e0 s =
      updateLine k (BitVec.ofNat 32 (e0 + ((s.chip k).firstUnderflow - 1) * P))
        (s.setChip k ((Chip.countB false mode)^[n] (s.chip k))) := by
  generalize he : BitVec.ofNat 32 (e0 + ((s.chip k).firstUnderflow - 1) * P) = e
  have hfirst := countLoop_first hk hmode hwon
  rw [he] at hfirst
  obtain ⟨hflags, hmask⟩ := Chip.countB_iterate_flags_of_le hmode hn
  have hsum : ((Chip.countB false mode)^[n] (s.chip k)).summary =
      (((s.chip k).reload .B).flagged false (flagOf .B)).summary := by
    rw [Chip.summary, hflags, hmask]
    rfl
  obtain ⟨i, rfl⟩ := Nat.exists_eq_add_of_le hn
  generalize hd : ((s.chip k).reload .B).flagged false (flagOf .B) = d at *
  have hflag : d.flags ||| flagOf .B = d.flags := by
    rw [← hd]
    change ((s.chip k).flags ||| flagOf .B) ||| flagOf .B = (s.chip k).flags ||| flagOf .B
    rw [BitVec.or_assoc, BitVec.or_self]
  have hchip : (updateLine k e (s.setChip k d)).chip k = d := by
    rw [State.chip_updateLine, State.chip_setChip_self s d hk]
  have hiter : (Chip.countB false mode)^[i] d = (Chip.countB false mode)^[(s.chip k).firstUnderflow + i] (s.chip k) := by
    rw [Nat.add_comm, Function.iterate_add_apply, Chip.countB_iterate_first hmode, hd]
  rw [countLoop_add, hfirst, countLoop_of_flag_set (settled_updateLine (by simpa using hk)) (by simpa using hk)
    (by rw [hchip]; exact hflag), hchip, hiter, updateLine_setChip_eq hk, State.setChip_setChip,
    updateLine_setChip_eq hk, hsum]

end

end Sys2Proof.Machine
end

section
/-! A cascaded channel B through a reconciliation (43_chip_timers.md R163, R164, R165): it counts the underflows of channel
A that the reconciliation takes. -/

namespace Sys2Proof.Machine

section
variable {k n e0 P : Nat} {c : Cycle} {mode : ChanState} {s t : State}

/-- The cycles of the underflows that a reconciliation takes are after the last read where the first of them is
(43_chip_timers.md R163; 44_chip_icr_sdr_ports.md R210). -/
theorem readWon_of_lastRead_lt {i : Nat} (hread : ∀ r ∈ (s.chip k).lastRead, r.toNat < e0) (hfits : e0 + i * P < 2 ^ 32) :
    readWon k (BitVec.ofNat 32 (e0 + i * P)) s = false := by
  refine readWon_of_lastRead_ne fun hsome => ?_
  have hlt := hread _ hsome
  rw [BitVec.toNat_ofNat, Nat.mod_eq_of_lt hfits] at hlt
  exact Nat.not_lt.mpr (Nat.le_add_right _ _) hlt

/-! ### The loop of the model -/

/-- `countLoop_of_le` through `SetFlag`, the counter and the control byte after the events given. -/
theorem countLoop_eq_setFlag {d : Chip} (hk : k < s.chips.length) (hmode : (s.chip k).chanState .B = mode)
    (hwon : readWon k (BitVec.ofNat 32 (e0 + ((s.chip k).firstUnderflow - 1) * P)) s = false)
    (hn : (s.chip k).firstUnderflow ≤ n) (hread : d.lastRead = (s.chip k).lastRead)
    (hd : (Chip.countB false mode)^[n] (s.chip k) = d.flagged false (flagOf .B)) :
    countLoop (underflowEffectsB k) k .B mode P n e0 s =
      setFlag k (flagOf .B) (BitVec.ofNat 32 (e0 + ((s.chip k).firstUnderflow - 1) * P)) (s.setChip k d) := by
  rw [countLoop_of_le hk hmode hwon hn, setFlag_of_not_readWon (by rwa [readWon_setChip hk hread]),
    State.chip_setChip_self s d hk, State.setChip_setChip, hd]
  rfl

theorem countEventsB_eq (k : Nat) (mode : ChanState) (n e0 P : Nat) (s : State) :
    countEvents k .B mode n e0 P s = countLoop (underflowEffectsB k) k .B mode P n e0 s := rfl

theorem countEvents_eq (hk : k < s.chips.length) (hmode : (s.chip k).chanState .B = mode) (hcounts : mode ≠ .stopped)
    (hread : ∀ r ∈ (s.chip k).lastRead, r.toNat < e0) (hfits : e0 + n * P < neverNat) :
    let c := s.chip k
    let Q := max c.chanB.latch.toNat 1
    let flagged := fun d =>
      setFlag k (flagOf .B) (BitVec.ofNat 32 (e0 + (c.firstUnderflow - 1) * P)) (s.setChip k d)
    countEvents k .B mode n e0 P s =
      if n < c.firstUnderflow then
        s.setChip k (c.countedB (BitVec.ofNat 16 (c.chanB.cnt.toNat - n)) c.chanB.toggle)
      else if c.oneShot .B then
        flagged { c.countedB c.chanB.latch (!c.chanB.toggle) with crb := clearStart c.crb }
      else
        flagged (c.countedB (BitVec.ofNat 16 (c.chanB.latch.toNat - (n - c.firstUnderflow) % Q))
          (if (1 + (n - c.firstUnderflow) / Q) % 2 = 1 then !c.chanB.toggle else c.chanB.toggle)) := by
  dsimp only
  rw [countEventsB_eq]
  by_cases hn : n < (s.chip k).firstUnderflow
  case pos => rw [if_pos hn, countLoop_of_lt hk hmode hn]
  case neg =>
    have hle := Nat.le_of_not_lt hn
    have hcycle : ((s.chip k).firstUnderflow - 1) * P ≤ n * P := Nat.mul_le_mul_right P (by omega)
    have hwon := readWon_of_lastRead_lt (i := (s.chip k).firstUnderflow - 1) hread
      (Nat.lt_trans (Nat.lt_of_le_of_lt (Nat.add_le_add_left hcycle e0) hfits) (by decide : neverNat < 2 ^ 32))
    rw [if_neg hn]
    cases hshot : (s.chip k).oneShot .B with
    | true => exact countLoop_eq_setFlag hk hmode hwon hle rfl (Chip.countB_iterate_oneShot hmode hcounts hshot hle)
    | false => exact countLoop_eq_setFlag hk hmode hwon hle rfl (Chip.countB_iterate_continuous hmode hshot hle)

/-! ### The cascade of a reconciliation -/

/-- The underflows of channel A that a reconciliation takes end in the count events of a cascaded channel B, the work
before them apart from channel B (43_chip_timers.md R164). -/
theorem updateTo_cascade (hk : k < s.chips.length) (hcasc : (s.chip k).chanState .B = .runningCascade)
    (hdue : (s.chip k).UnderflowDue .A c) (h : updateTo k c s = .ok t) :
    ∃ u, ApartFrom k .B c s u ∧ t = storeLive k c
      (countLoop (underflowEffectsB k) k .B .runningCascade ((s.chip k).period .A) ((s.chip k).underflowsTo .A c)
        (s.chip k).chanA.u.toNat u) := by
  obtain ⟨-, s₁, s₂, hA, hB, rfl⟩ := updateTo_eq_ok.mp h
  rcases chanCatchUp_cases hA with ⟨hnot, -⟩ | ⟨-, hfits, rfl⟩
  case inl => exact absurd hdue hnot
  have hlast := Chip.lastUnderflow_le hdue
  have hcycle : BitVec.ofNat 32 (s.chip k).chanA.u.toNat = (s.chip k).chanA.u := by simp
  have htake : ApartFrom k .B c s (takeUnderflows k .A c s) := ApartFrom.takeUnderflows (by decide) hk hfits
  have hflag : FlagWork k c.toNat (flagOf .B) _
      (setFlag k (flagOf .A) (BitVec.ofNat 32 (s.chip k).chanA.u.toNat) (takeUnderflows k .A c s)) :=
    FlagWork.setFlag rfl (by rw [hcycle]; exact hdue.2)
  have hshift : FlagWork k c.toNat (flagOf .B) _ (clockShift k ((s.chip k).underflowsTo .A c) (s.chip k).chanA.u.toNat
      ((s.chip k).period .A) (setFlag k (flagOf .A) (BitVec.ofNat 32 (s.chip k).chanA.u.toNat) (takeUnderflows k .A c s))) :=
    FlagWork.clockShift rfl hlast
  have hu := (htake.trans hflag.apartFrom).trans hshift.apartFrom
  have hidle : ¬((catchUpEffects k .A c s).chip k).UnderflowDue .B c := by
    refine (KeepsSchedule.underflowEffects k .A _ _ _ _).not_due fun hdueB => ?_
    have hstate := hdueB.1
    rw [Chip.chanState_congr htake.ctl, hcasc] at hstate
    cases hstate
  rw [chanCatchUp_of_not_due hidle] at hB
  cases hB
  refine ⟨_, hu, ?_⟩
  have hmode := (Chip.chanState_congr hu.ctl).trans hcasc
  exact congrArg (storeLive k c) (if_pos hmode)

theorem chanB_storeLive_of_idle (hk : k < s.chips.length) (hidle : (s.chip k).chanState .B ≠ .running) :
    ((storeLive k c s).chip k).chanB = (s.chip k).chanB := by
  have h : ((storeLive k c s).chip k).chan .B = { (s.chip k).chan .B with cnt := (s.chip k).live .B c } :=
    chan_storeLive hk
  rw [Chip.live_of_idle hidle] at h
  exact h

theorem flags_storeLive (hk : k < s.chips.length) : ((storeLive k c s).chip k).flags = (s.chip k).flags := by
  unfold storeLive
  rw [State.chip_setChip_self s _ hk]

/-- The underflows that a reconciliation takes are at cycles below 2^32 (43_chip_timers.md R163). -/
theorem Chip.underflow_lt {chip : Chip} {x : Channel} {i : Nat} (hdue : chip.UnderflowDue x c)
    (hi : i < chip.underflowsTo x c) : (chip.chan x).u.toNat + i * chip.period x < 2 ^ 32 := by
  have hlast := Chip.lastUnderflow_le hdue
  have hle : i * chip.period x ≤ (chip.underflowsTo x c - 1) * chip.period x := Nat.mul_le_mul_right _ (by omega)
  have hc := c.isLt
  omega

section
variable (hk : k < s.chips.length) (hcasc : (s.chip k).chanState .B = .runningCascade)
  (hread : ∀ r ∈ (s.chip k).lastRead, r.toNat < (s.chip k).chanA.u.toNat) (hdue : (s.chip k).UnderflowDue .A c)
  (h : updateTo k c s = .ok t)
include hk hcasc hread hdue h

/-- Channel B, its control byte and its flag after a reconciliation are those of a chip that has counted the underflows of
channel A (43_chip_timers.md R164). -/
theorem updateTo_cascaded_chip :
    ∃ d : Chip, d.chanB = (s.chip k).chanB ∧ d.crb = (s.chip k).crb ∧
      d.flags &&& flagOf .B = (s.chip k).flags &&& flagOf .B ∧
      let d' := (Chip.countB false .runningCascade)^[(s.chip k).underflowsTo .A c] d
      (t.chip k).chanB = d'.chanB ∧ (t.chip k).crb = d'.crb ∧ (t.chip k).flags = d'.flags := by
  have hidle := (updateTo_cascaded hk hcasc h).1
  obtain ⟨u, hu, rfl⟩ := updateTo_cascade hk hcasc hdue h
  refine ⟨u.chip k, hu.chan, hu.ctl, hu.flags_spared, ?_⟩
  have hku : k < u.chips.length := by rwa [hu.only.chips_length]
  have hloop := chip_countLoop (won := false) (mode := .runningCascade) (n := (s.chip k).underflowsTo .A c)
    (e0 := (s.chip k).chanA.u.toNat) (P := (s.chip k).period .A) hku
    (fun i hi => readWon_of_lastRead_lt (by rwa [hu.kept.lastRead]) (Chip.underflow_lt hdue hi))
  dsimp only
  rw [← hloop]
  generalize hv : countLoop (underflowEffectsB k) k .B .runningCascade ((s.chip k).period .A) ((s.chip k).underflowsTo .A c)
    (s.chip k).chanA.u.toNat u = v at *
  have hkv : k < v.chips.length := by
    rw [← hv, (OnlyChip.countLoop (fun e s => OnlyChip.underflowEffectsB k e s) _ _ _).chips_length]
    exact hku
  rw [Chip.chanState_congr (ctl_storeLive hkv)] at hidle
  exact ⟨chanB_storeLive_of_idle hkv hidle, ctl_storeLive (x := .B) hkv, flags_storeLive hkv⟩

/-- With the flag of channel B alone enabled, a line that is low is stamped with the first underflow of channel B
(44_chip_icr_sdr_ports.md R214). -/
theorem updateTo_cascaded_stamp (ht : Tracked k s) (hsource : k < s.cfg.nSources)
    (hn : (s.chip k).firstUnderflow ≤ (s.chip k).underflowsTo .A c) (hmask : (s.chip k).mask = flagOf .B)
    (hlow : s.level (s.lineOf k) = false) :
    t.lineClk (s.lineOf k) = BitVec.ofNat 32
      ((s.chip k).chanA.u.toNat + ((s.chip k).firstUnderflow - 1) * (s.chip k).period .A) := by
  obtain ⟨u, hu, rfl⟩ := updateTo_cascade hk hcasc hdue h
  have hku : k < u.chips.length := by rwa [hu.only.chips_length]
  have hline : u.lineOf k = s.lineOf k := by rw [State.lineOf, hu.only.cfg, State.lineOf]
  have hfirst : (u.chip k).firstUnderflow = (s.chip k).firstUnderflow := by
    have hchan : (u.chip k).chanB = (s.chip k).chanB := hu.chan
    rw [Chip.firstUnderflow, hchan, Chip.firstUnderflow]
  have hpos := (s.chip k).firstUnderflow_pos
  have hwon : readWon k (BitVec.ofNat 32
      ((s.chip k).chanA.u.toNat + ((u.chip k).firstUnderflow - 1) * (s.chip k).period .A)) u = false :=
    readWon_of_lastRead_lt (by rwa [hu.kept.lastRead]) (Chip.underflow_lt hdue (by rw [hfirst]; omega))
  rw [countLoop_of_le hku ((Chip.chanState_congr hu.ctl).trans hcasc) hwon (by rwa [hfirst]), hfirst]
  generalize hd : (Chip.countB false .runningCascade)^[(s.chip k).underflowsTo .A c] (u.chip k) = d
  obtain ⟨hflags, hmask'⟩ := Chip.countB_iterate_flags_of_le (mode := .runningCascade) (c := u.chip k)
    ((Chip.chanState_congr hu.ctl).trans hcasc) (n := (s.chip k).underflowsTo .A c) (by rwa [hfirst])
  rw [hd] at hflags hmask'
  have hsum : d.summary = true := by
    refine Chip.summary_of_flag_set (hmask'.trans (hu.kept.mask.trans hmask)) ?_
    rw [hflags, or_and_eq_self]
  rw [← hline]
  refine lineClk_updateLine_of_rise (s := u.setChip k d) ?_ ?_ ?_ ?_
  · exact hu.only.cfg ▸ hsource
  · exact (hu.tracked ht).src_lt
  · rw [State.chip_setChip_self u d hku, hsum]
  · exact (congrArg u.level hline).trans (level_of_apart ht hu.toReconciling hsource hmask hlow)

end

end

theorem flagB_of_and_eq {f g : Byte} (h : f &&& flagOf .B = g &&& flagOf .B) : f.getLsbD 1 = g.getLsbD 1 := by
  have hbit := congrArg (BitVec.getLsbD · 1) h
  simpa [flagOf] using hbit

theorem ChipInv.lastRead_lt {k : Nat} {x : Channel} {s : State} (h : ChipInv s k)
    (hrun : (s.chip k).chanState x = .running) : ∀ r ∈ (s.chip k).lastRead, r.toNat < ((s.chip k).chan x).u.toNat :=
  fun r hr => Nat.lt_of_le_of_lt (BitVec.le_def.mp (h.lastRead_le r hr)) (BitVec.lt_def.mp ((h.chan x).running_after hrun))

/-- Channel B and its control byte after the first underflow (43_chip_timers.md R165). -/
theorem Chip.countB_iterate_of_le {won : Bool} {mode : ChanState} {c : Chip} {n : Nat} (hmode : c.chanState .B = mode)
    (hcounts : mode ≠ .stopped) (hn : c.firstUnderflow ≤ n) :
    let b := c.chanB
    let Q := max b.latch.toNat 1
    ((Chip.countB won mode)^[n] c).chanB =
      (if c.crb.getLsbD 3 then { b with cnt := b.latch, toggle := !b.toggle }
       else { b with
         cnt := BitVec.ofNat 16 (b.latch.toNat - (n - c.firstUnderflow) % Q)
         toggle := if (1 + (n - c.firstUnderflow) / Q) % 2 = 1 then !b.toggle else b.toggle }) ∧
    ((Chip.countB won mode)^[n] c).crb = if c.crb.getLsbD 3 then c.crb &&& 0xFE else c.crb := by
  cases hshot : c.crb.getLsbD 3 with
  | true =>
    rw [Chip.countB_iterate_oneShot hmode hcounts hshot hn]
    exact ⟨rfl, rfl⟩
  | false =>
    rw [Chip.countB_iterate_continuous hmode hshot hn]
    exact ⟨rfl, rfl⟩

/-- Settles O52: the loop is `countEvents_eq`; in a reconciliation a cascaded channel B runs it (`updateTo_cascaded_chip`),
and its first underflow stamps the line (`updateTo_cascaded_stamp`). -/
theorem countEventsClosedForm : Obligations.CountEventsClosedForm := by
  unfold Obligations.CountEventsClosedForm
  refine ⟨fun s k n e0 P mode hk hmode hcounts hread hfits => ?_, fun s k c hinv hk hrc hroom hcasc => ?_⟩
  · exact countEvents_eq hk hmode (by rcases hcounts with rfl | rfl <;> decide) hread hfits
  · obtain ⟨t, h⟩ := updateTo_total hrc (Nat.lt_of_le_of_lt (by omega) hroom)
    have hlen := hinv.chip_lt hk
    refine ⟨t, h, ?_⟩
    dsimp only
    refine ⟨fun hdue hn => ?_, fun hdue hn => ?_, fun hdue => ?_⟩
    case refine_1 =>
      obtain ⟨d, hchan, hctl, hflags, hB, hcrb, hflag⟩ :=
        updateTo_cascaded_chip hlen hcasc ((hinv.chip k hk).lastRead_lt hdue.1) hdue h
      have hmode : d.chanState .B = .runningCascade := (congrArg (ctlState .B) hctl).trans hcasc
      rw [Chip.countB_iterate_of_lt hmode (by rw [Chip.firstUnderflow, hchan]; exact hn)] at hB hcrb hflag
      exact ⟨hB.trans (by rw [← hchan]; rfl), hcrb.trans hctl, flagB_of_and_eq (by rw [hflag]; exact hflags)⟩
    case refine_2 =>
      have hread := (hinv.chip k hk).lastRead_lt hdue.1
      obtain ⟨d, hchan, hctl, -, hB, hcrb, hflag⟩ := updateTo_cascaded_chip hlen hcasc hread hdue h
      have hmode : d.chanState .B = .runningCascade := (congrArg (ctlState .B) hctl).trans hcasc
      have hle : d.firstUnderflow ≤ (s.chip k).underflowsTo .A c := by rw [Chip.firstUnderflow, hchan]; exact hn
      obtain ⟨hchanB, hctlB⟩ := Chip.countB_iterate_of_le (won := false) hmode (by decide) hle
      have hset : (t.chip k).flags.getLsbD 1 = true := by
        rw [hflag, (Chip.countB_iterate_flags_of_le hmode hle).1, BitVec.getLsbD_or]
        exact Bool.or_true _
      refine ⟨hB.trans ?_, hcrb.trans ?_, hset, updateTo_cascaded_stamp hlen hcasc hread hdue h (hinv.tracked hk)
        (hinv.source_lt hk) hn⟩
      · rw [hchanB, Chip.firstUnderflow, hchan, hctl]
        rfl
      · rw [hctlB, hctl]
    case refine_3 =>
      have hidle : (s.chip k).chanState .B ≠ .running := by rw [hcasc]; decide
      obtain ⟨-, s₁, s₂, hA, hB, rfl⟩ := updateTo_eq_ok.mp h
      rw [chanCatchUp_of_not_due hdue] at hA
      cases hA
      rw [chanCatchUp_of_not_due fun hdueB => hidle hdueB.1] at hB
      cases hB
      exact ⟨chanB_storeLive_of_idle hlen hidle, ctl_storeLive (x := .B) hlen, by rw [flags_storeLive hlen]⟩

end Sys2Proof.Machine
end

section
/-! The underflows of channel A one at a time (43_chip_timers.md R164): `n` of them together are one of them `n` times
(`Chip.afterUnderflows_eq_iterate`), and what they do does not depend on the timing of channel A. No read of the flags
wins. -/

namespace Sys2Proof.Machine

section
variable {early : Option Nat} {mode : ChanState} {bit : Byte} {c : Chip} {n : Nat}

/-- One underflow of channel A (43_chip_timers.md R164). -/
def Chip.underflowA (early : Option Nat) (c : Chip) : Chip :=
  ((c.flagged false (flagOf .A)).clocked false early).countB false .runningCascade

/-! ### Effects that can be exchanged -/

theorem byte_or_right_comm (f b d : Byte) : (f ||| b) ||| d = (f ||| d) ||| b := by
  rw [BitVec.or_assoc, BitVec.or_comm b, BitVec.or_assoc]

theorem Chip.commute_clocked_flagged : Function.Commute (Chip.clocked false early) (Chip.flagged false bit) := by
  intro c
  by_cases hshift : c.Shifting
  · have hshift' : (c.flagged false bit).Shifting := hshift
    unfold Chip.clocked
    rw [if_pos hshift, if_pos hshift']
    exact congrArg (fun flags => { c with srBits := c.srBits - 1, flags := flags }) (byte_or_right_comm _ _ _)
  · have hshift' : ¬(c.flagged false bit).Shifting := hshift
    unfold Chip.clocked
    rw [if_neg hshift, if_neg hshift']

/-- Chip `c` with more flags set and another shift countdown. -/
def Chip.marked (bits : Byte) (sr : BitVec 5) (c : Chip) : Chip := { c with flags := c.flags ||| bits, srBits := sr }

/-- A count event of channel B does not depend on the flags, nor on the shift register. -/
theorem Chip.countB_marked (bits : Byte) (sr : BitVec 5) (c : Chip) :
    (c.marked bits sr).countB false mode = (c.countB false mode).marked bits sr := by
  by_cases hmode : c.chanState .B = mode
  · have hmode' : (c.marked bits sr).chanState .B = mode := hmode
    rw [Chip.countB_of_state hmode, Chip.countB_of_state hmode', Chip.countOnceB_eq, Chip.countOnceB_eq]
    unfold Chip.marked
    dsimp only
    rw [byte_or_right_comm]
    rfl
  · have hmode' : (c.marked bits sr).chanState .B ≠ mode := hmode
    rw [Chip.countB, if_neg hmode', Chip.countB, if_neg hmode]

theorem Chip.srBits_countB : (c.countB false mode).srBits = c.srBits := by
  unfold Chip.countB Chip.countOnce
  split
  · split <;> rfl
  · rfl

theorem Chip.cra_countB : (c.countB false mode).cra = c.cra := by
  unfold Chip.countB Chip.countOnce
  split
  · split <;> rfl
  · rfl

theorem Chip.commute_countB_flagged : Function.Commute (Chip.countB false mode) (Chip.flagged false bit) := by
  intro c
  refine (Chip.countB_marked bit c.srBits c).trans ?_
  rw [← Chip.srBits_countB (mode := mode)]
  rfl

/-- The clock of the shift register goes with every function that leaves its mode and its countdown alone and does not
depend on the flags (44_chip_icr_sdr_ports.md R218). -/
theorem Chip.semiconj_clocked {g : Chip → Chip} (hcra : ∀ c, (g c).cra.getLsbD 6 = c.cra.getLsbD 6)
    (hsr : ∀ c, (g c).srBits = c.srBits) (hmark : ∀ bits sr c, g (Chip.marked bits sr c) = (g c).marked bits sr) :
    Function.Semiconj g (Chip.clocked false early) (Chip.clocked false early) := by
  intro c
  have hsame : (g c).Shifting ↔ c.Shifting := by rw [Chip.Shifting, hcra, hsr]
  by_cases hshift : c.Shifting
  · unfold Chip.clocked
    rw [if_pos hshift, if_pos (hsame.mpr hshift), hsr]
    exact hmark _ _ c
  · unfold Chip.clocked
    rw [if_neg hshift, if_neg (hsame.not.mpr hshift)]

theorem Chip.commute_countB_clocked : Function.Commute (Chip.countB false mode) (Chip.clocked false early) :=
  Chip.semiconj_clocked (fun c => by rw [Chip.cra_countB]) (fun _ => Chip.srBits_countB) Chip.countB_marked

/-! ### Underflows one at a time -/

theorem Chip.flagged_iterate (hn : 0 < n) (c : Chip) : (Chip.flagged false bit)^[n] c = c.flagged false bit := by
  obtain ⟨m, rfl⟩ := Nat.exists_eq_succ_of_ne_zero (Nat.ne_of_gt hn)
  have hagain : (c.flagged false bit).flagged false bit = c.flagged false bit := by
    refine congrArg (fun flags => { c with flags := flags }) ?_
    change (c.flags ||| bit) ||| bit = c.flags ||| bit
    rw [BitVec.or_assoc, BitVec.or_self]
  exact Function.iterate_fixed hagain m

/-- The underflows that a reconciliation takes together are taken one by one (43_chip_timers.md R164). -/
theorem Chip.afterUnderflows_eq_iterate (hn : 0 < n) (c : Chip) :
    c.afterUnderflows false early .A n = (Chip.underflowA early)^[n] c := by
  have hshift : Function.Commute (Chip.clocked false early) (Chip.flagged false (flagOf .A)) :=
    Chip.commute_clocked_flagged
  have hcount : Function.Commute (Chip.countB false .runningCascade)
      (Chip.clocked false early ∘ Chip.flagged false (flagOf .A)) :=
    Chip.commute_countB_clocked.comp_right Chip.commute_countB_flagged
  have hunderflow : Chip.underflowA early = Chip.countB false .runningCascade ∘
      (Chip.clocked false early ∘ Chip.flagged false (flagOf .A)) := rfl
  rw [hunderflow, hcount.comp_iterate, hshift.comp_iterate]
  change _ = (Chip.countB false .runningCascade)^[n] ((Chip.clocked false early)^[n] ((Chip.flagged false (flagOf .A))^[n] c))
  rw [Chip.flagged_iterate hn]
  rfl

theorem Chip.commute_underflowA_flagged : Function.Commute (Chip.underflowA early) (Chip.flagged false bit) := by
  have hflag : Function.Commute (Chip.flagged false (flagOf .A)) (Chip.flagged false bit) := fun c =>
    congrArg (fun flags => { c with flags := flags }) (byte_or_right_comm _ _ _)
  exact Chip.commute_countB_flagged.comp_left (Chip.commute_clocked_flagged.comp_left hflag)

/-! ### A chip without its timing -/

/-- What a channel that is left out of the account is replaced by. -/
def Chan.blank : Chan := ⟨0, 0, never, false⟩

/-- A chip without the timing of channel A (43_chip_timers.md R160, R166). -/
def Chip.untimedA (c : Chip) : Chip := { c with chanA := Chan.blank, cra := clearStart c.cra, rc := 0 }

/-- A chip without the timing of its channels (43_chip_timers.md R160, R166). -/
def Chip.untimed (c : Chip) : Chip := { c.untimedA with chanB := Chan.blank, crb := clearStart c.crb }

theorem clearStart_getLsbD {i : Nat} (v : Byte) (hi : (0xFE : Byte).getLsbD i = true) :
    (clearStart v).getLsbD i = v.getLsbD i := by
  rw [clearStart, BitVec.getLsbD_and, hi, Bool.and_true]

theorem Chip.untimedA_clocked : Function.Semiconj Chip.untimedA (Chip.clocked false early) (Chip.clocked false early) :=
  Chip.semiconj_clocked (fun c => clearStart_getLsbD c.cra (by decide)) (fun _ => rfl) fun _ _ _ => rfl

theorem Chip.untimed_clocked : Function.Semiconj Chip.untimed (Chip.clocked false early) (Chip.clocked false early) :=
  Chip.semiconj_clocked (fun c => clearStart_getLsbD c.cra (by decide)) (fun _ => rfl) fun _ _ _ => rfl

theorem Chip.untimedA_countB : (c.countB false mode).untimedA = c.untimedA.countB false mode := by
  by_cases hmode : c.chanState .B = mode
  · have hmode' : c.untimedA.chanState .B = mode := hmode
    rw [Chip.countB_of_state hmode, Chip.countB_of_state hmode', Chip.countOnceB_eq, Chip.countOnceB_eq]
    rfl
  · have hmode' : c.untimedA.chanState .B ≠ mode := hmode
    rw [Chip.countB, if_neg hmode, Chip.countB, if_neg hmode']

theorem Chip.untimedA_underflowA : Function.Semiconj Chip.untimedA (Chip.underflowA early) (Chip.underflowA early) := by
  intro c
  rw [Chip.underflowA, Chip.untimedA_countB, Chip.untimedA_clocked.eq]
  rfl

theorem Chip.crb_clocked : (c.clocked false early).crb = c.crb := by
  unfold Chip.clocked
  split <;> rfl

theorem Chip.underflowA_of_not_cascaded (hB : c.chanState .B ≠ .runningCascade) :
    c.underflowA early = (c.flagged false (flagOf .A)).clocked false early := by
  refine if_neg ?_
  rwa [Chip.chanState, Chip.ctl, Chip.crb_clocked]

theorem Chip.crb_underflowA (hB : c.chanState .B ≠ .runningCascade) : (c.underflowA early).crb = c.crb := by
  rw [Chip.underflowA_of_not_cascaded hB, Chip.crb_clocked]
  rfl

/-- Where channel B is not cascaded its timing has no part in an underflow of channel A (43_chip_timers.md R164). -/
theorem Chip.untimed_underflowA (hB : c.chanState .B ≠ .runningCascade) :
    (c.underflowA early).untimed = c.untimed.underflowA early := by
  have hblank : c.untimed.chanState .B ≠ .runningCascade := by
    change ctlState .B (clearStart c.crb) ≠ _
    rw [ctlState_clearStart]
    decide
  rw [Chip.underflowA_of_not_cascaded hB, Chip.underflowA_of_not_cascaded hblank, Chip.untimed_clocked.eq]
  rfl

theorem Chip.untimed_underflowA_iterate (hB : c.chanState .B ≠ .runningCascade) (n : Nat) :
    ((Chip.underflowA early)^[n] c).untimed = (Chip.underflowA early)^[n] c.untimed := by
  induction n generalizing c with
  | zero => rfl
  | succ n ih =>
    rw [Function.iterate_succ_apply, ih, Chip.untimed_underflowA hB, Function.iterate_succ_apply]
    rwa [Chip.chanState_congr (c := c) (x := .B) (Chip.crb_underflowA hB)]

end

end Sys2Proof.Machine
end

section
/-! What a reconciliation does besides the timing of the channels (43_chip_timers.md R163 to R166): the underflows of
channel A one by one, and the flag of channel B (`untimedA_updateTo`, `untimed_updateTo`). -/

namespace Sys2Proof.Machine

/-- The number of underflows of channel `x` that a reconciliation at cycle `c` takes (43_chip_timers.md R163). -/
def Chip.takes (chip : Chip) (x : Channel) (c : Cycle) : Nat :=
  if chip.chanState x = .running ∧ (chip.chan x).u ≤ c then chip.underflowsTo x c else 0

/-- Chip `chip` with the underflows of channel `x` taken, before their effects (43_chip_timers.md R163). -/
def Chip.taken (chip : Chip) (x : Channel) (c : Cycle) : Chip :=
  (chip.setCtl x (chip.ctlAfter x)).setChan x (chip.reloaded x c)

section
variable {k : Nat} {x : Channel} {c : Cycle} {s t : State} {chip : Chip}

theorem Chip.takes_of_due (h : chip.UnderflowDue x c) : chip.takes x c = chip.underflowsTo x c := if_pos h

theorem Chip.takes_of_not_due (h : ¬chip.UnderflowDue x c) : chip.takes x c = 0 := if_neg h

theorem Chip.takes_congr {chip' : Chip} (hchan : chip'.chan x = chip.chan x) (hctl : chip'.ctl x = chip.ctl x) :
    chip'.takes x c = chip.takes x c := by
  rw [Chip.takes, Chip.chanState_congr hctl, Chip.underflowsTo_congr hchan hctl, hchan, Chip.takes]

/-! ### The timing that is left out -/

theorem clearStart_ctlAfter : clearStart (chip.ctlAfter x) = clearStart (chip.ctl x) := by
  unfold Chip.ctlAfter
  split
  · exact clearStart_clearStart _
  · rfl

theorem Chip.untimedA_taken : (chip.taken .A c).untimedA = chip.untimedA :=
  congrArg (fun cra => { chip with chanA := Chan.blank, cra := cra, rc := 0 }) clearStart_ctlAfter

theorem Chip.untimed_taken : (chip.taken x c).untimed = chip.untimed := by
  cases x with
  | A => exact congrArg (fun cra => { chip.untimed with cra := cra }) clearStart_ctlAfter
  | B => exact congrArg (fun crb => { chip.untimed with crb := crb }) clearStart_ctlAfter

theorem untimed_storeLive (hk : k < s.chips.length) : ((storeLive k c s).chip k).untimed = (s.chip k).untimed := by
  unfold storeLive
  rw [State.chip_setChip_self s _ hk]
  rfl

theorem untimedA_storeLive (hk : k < s.chips.length) (hB : (s.chip k).chanState .B ≠ .running) :
    ((storeLive k c s).chip k).untimedA = (s.chip k).untimedA := by
  have hchanB := chanB_storeLive_of_idle (c := c) hk hB
  unfold storeLive at hchanB ⊢
  rw [State.chip_setChip_self s _ hk] at hchanB ⊢
  exact congrArg (fun ch => { (s.chip k).untimedA with chanB := ch }) hchanB

/-! ### A channel that takes its underflows -/

/-- The chip of a channel that takes its underflows, no read having won (43_chip_timers.md R163, R164). -/
theorem chip_catchUpEffects (hk : k < s.chips.length) (hdue : (s.chip k).UnderflowDue x c)
    (hfits : (s.chip k).oneShot x = true ∨ (s.chip k).rescheduled x c < neverNat)
    (hread : ∀ r ∈ (s.chip k).lastRead, r.toNat < ((s.chip k).chan x).u.toNat) :
    (catchUpEffects k x c s).chip k =
      ((s.chip k).taken x c).afterUnderflows false s.cfg.srEarly x ((s.chip k).underflowsTo x c) := by
  have htake : Reconciling k c.toNat 0 s (takeUnderflows k x c s) := Reconciling.takeUnderflows hfits
  unfold catchUpEffects
  rw [chip_underflowEffects (won := false) (by rwa [htake.only.chips_length]) (Chip.underflowsTo_pos _ _ _),
    chip_takeUnderflows hk, htake.only.cfg]
  · rfl
  · exact fun i hi => readWon_of_lastRead_lt (by rwa [htake.kept.lastRead]) (Chip.underflow_lt hdue hi)

theorem chip_chanCatchUp_A (hk : k < s.chips.length)
    (hread : (s.chip k).chanState .A = .running → ∀ r ∈ (s.chip k).lastRead, r.toNat < (s.chip k).chanA.u.toNat)
    (h : chanCatchUp k .A c s = .ok t) :
    t.chip k = s.chip k ∧ (s.chip k).takes .A c = 0 ∨
      t.chip k = (Chip.underflowA s.cfg.srEarly)^[(s.chip k).takes .A c] ((s.chip k).taken .A c) := by
  rcases chanCatchUp_cases h with ⟨hdue, rfl⟩ | ⟨hdue, hfits, rfl⟩
  · exact .inl ⟨rfl, Chip.takes_of_not_due hdue⟩
  · refine .inr ?_
    rw [chip_catchUpEffects hk hdue hfits (hread hdue.1), Chip.afterUnderflows_eq_iterate (Chip.underflowsTo_pos _ _ _),
      Chip.takes_of_due hdue]

theorem untimed_chanCatchUp_B (hk : k < s.chips.length)
    (hread : (s.chip k).chanState .B = .running → ∀ r ∈ (s.chip k).lastRead, r.toNat < (s.chip k).chanB.u.toNat)
    (h : chanCatchUp k .B c s = .ok t) :
    (t.chip k).untimed = (Chip.flagged false (flagOf .B))^[(s.chip k).takes .B c] (s.chip k).untimed := by
  rcases chanCatchUp_cases h with ⟨hdue, rfl⟩ | ⟨hdue, hfits, rfl⟩
  · rw [Chip.takes_of_not_due hdue]
    rfl
  · rw [chip_catchUpEffects hk hdue hfits (hread hdue.1), Chip.takes_of_due hdue,
      Chip.flagged_iterate (Chip.underflowsTo_pos _ _ _)]
    have hflag (d : Chip) (n : Nat) :
        (d.afterUnderflows false s.cfg.srEarly .B n).untimed = d.untimed.flagged false (flagOf .B) := rfl
    rw [hflag, Chip.untimed_taken]

/-! ### The whole reconciliation -/

/-- The last read of the flags is before the next underflow of every channel that runs (43_chip_timers.md R162). -/
def Chip.ReadBefore (chip : Chip) : Prop :=
  ∀ x, chip.chanState x = .running → ∀ r ∈ chip.lastRead, r.toNat < (chip.chan x).u.toNat

theorem running_B_chanCatchUp_A (hk : k < s.chips.length) (h : chanCatchUp k .A c s = .ok t) :
    (t.chip k).chanState .B = .running ↔ (s.chip k).chanState .B = .running := by
  rcases chanCatchUp_cases h with ⟨-, rfl⟩ | ⟨-, hfits, rfl⟩
  · exact Iff.rfl
  · have htake : ApartFrom k .B c s (takeUnderflows k .A c s) := ApartFrom.takeUnderflows (by decide) hk hfits
    rw [← Chip.chanState_congr htake.ctl]
    exact (KeepsSchedule.underflowEffects k .A _ _ _ _).running .B

/-- The underflows of channel A, where channel B counts no cycles. -/
theorem untimedA_updateTo (hk : k < s.chips.length) (hread : (s.chip k).ReadBefore)
    (hB : (s.chip k).chanState .B ≠ .running) (h : updateTo k c s = .ok t) :
    (t.chip k).untimedA = (Chip.underflowA s.cfg.srEarly)^[(s.chip k).takes .A c] (s.chip k).untimedA := by
  obtain ⟨-, s₁, s₂, hA, hcatchB, rfl⟩ := updateTo_eq_ok.mp h
  have hk₁ : k < s₁.chips.length := by rwa [(OnlyChip.chanCatchUp hA).chips_length]
  have hB₁ : (s₁.chip k).chanState .B ≠ .running := (running_B_chanCatchUp_A hk hA).not.mpr hB
  rw [chanCatchUp_of_not_due fun hdue => hB₁ hdue.1] at hcatchB
  cases hcatchB
  rw [untimedA_storeLive hk₁ hB₁]
  rcases chip_chanCatchUp_A hk (hread .A) hA with ⟨hchip, hnone⟩ | hchip
  · rw [hchip, hnone]
    rfl
  · rw [hchip, (Chip.untimedA_underflowA.iterate_right _).eq, Chip.untimedA_taken]

/-- The underflows of both channels, where channel B is not cascaded. -/
theorem untimed_updateTo (hk : k < s.chips.length) (hread : (s.chip k).ReadBefore)
    (hB : (s.chip k).chanState .B ≠ .runningCascade) (h : updateTo k c s = .ok t) :
    (t.chip k).untimed = (Chip.flagged false (flagOf .B))^[(s.chip k).takes .B c]
      ((Chip.underflowA s.cfg.srEarly)^[(s.chip k).takes .A c] (s.chip k).untimed) := by
  obtain ⟨-, s₁, s₂, hA, hcatchB, rfl⟩ := updateTo_eq_ok.mp h
  have hk₁ : k < s₁.chips.length := by rwa [(OnlyChip.chanCatchUp hA).chips_length]
  have hk₂ : k < s₂.chips.length := by rwa [(OnlyChip.chanCatchUp hcatchB).chips_length]
  have hapart : ApartFrom k .B c s s₁ := ApartFrom.chanCatchUp (by decide) hk (fun hcasc => hB hcasc.2) hA
  have hread₁ : (s₁.chip k).chanState .B = .running →
      ∀ r ∈ (s₁.chip k).lastRead, r.toNat < (s₁.chip k).chanB.u.toNat := by
    rw [Chip.chanState_congr hapart.ctl, hapart.kept.lastRead, show (s₁.chip k).chanB = _ from hapart.chan]
    exact hread .B
  have hfirst : (s₁.chip k).untimed = (Chip.underflowA s.cfg.srEarly)^[(s.chip k).takes .A c] (s.chip k).untimed := by
    rcases chip_chanCatchUp_A hk (hread .A) hA with ⟨hchip, hnone⟩ | hchip
    · rw [hchip, hnone]
      rfl
    · have hB' : ((s.chip k).taken .A c).chanState .B ≠ .runningCascade := hB
      rw [hchip, Chip.untimed_underflowA_iterate hB', Chip.untimed_taken]
  rw [untimed_storeLive hk₂, untimed_chanCatchUp_B hk₁ hread₁ hcatchB, hfirst, Chip.takes_congr hapart.chan hapart.ctl]

end

end Sys2Proof.Machine
end

section
/-! A channel through two reconciliations (43_chip_timers.md R163, R169): after the first at `c₁` the second at `c₂` comes
to what one at `c₂` comes to, and both together take as many underflows (`agreesAfter`). -/

namespace Sys2Proof.Machine

/-- Channel `x` after a reconciliation at cycle `c` (43_chip_timers.md R163, R166). -/
def Chip.chanTo (chip : Chip) (x : Channel) (c : Cycle) : Chan :=
  if chip.chanState x = .running ∧ (chip.chan x).u ≤ c then
    { chip.reloaded x c with
      cnt := if chip.oneShot x then (chip.chan x).latch
        else BitVec.ofNat 16 (min (chip.chan x).latch.toNat ((chip.uAfter x c).toNat - c.toNat)) }
  else { chip.chan x with cnt := chip.live x c }

/-- The control byte of channel `x` after a reconciliation at cycle `c` (43_chip_timers.md R163). -/
def Chip.ctlTo (chip : Chip) (x : Channel) (c : Cycle) : Byte :=
  if chip.chanState x = .running ∧ (chip.chan x).u ≤ c then chip.ctlAfter x else chip.ctl x

section
variable {k : Nat} {x : Channel} {c c₁ c₂ : Cycle} {s t : State} {chip chip₁ : Chip}

theorem Chip.chanTo_of_due (h : chip.UnderflowDue x c) :
    chip.chanTo x c = { chip.reloaded x c with
      cnt := if chip.oneShot x then (chip.chan x).latch
        else BitVec.ofNat 16 (min (chip.chan x).latch.toNat ((chip.uAfter x c).toNat - c.toNat)) } := if_pos h

theorem Chip.chanTo_of_not_due (h : ¬chip.UnderflowDue x c) :
    chip.chanTo x c = { chip.chan x with cnt := chip.live x c } := if_neg h

theorem Chip.ctlTo_of_due (h : chip.UnderflowDue x c) : chip.ctlTo x c = chip.ctlAfter x := if_pos h

theorem Chip.ctlTo_of_not_due (h : ¬chip.UnderflowDue x c) : chip.ctlTo x c = chip.ctl x := if_neg h

theorem updateTo_chanTo (hk : k < s.chips.length) (hslot : slotOf k x < s.alarms.length)
    (hcasc : ¬(s.chip k).Cascaded x) (h : updateTo k c s = .ok t) :
    (t.chip k).chan x = (s.chip k).chanTo x c ∧ (t.chip k).ctl x = (s.chip k).ctlTo x c := by
  by_cases hdue : (s.chip k).UnderflowDue x c
  · obtain ⟨hchan, hctl, -⟩ := updateTo_due hk hslot hdue h
    rw [Chip.chanTo_of_due hdue, Chip.ctlTo_of_due hdue]
    exact ⟨hchan, hctl⟩
  · obtain ⟨hchan, hctl, -⟩ := updateTo_not_due hk hcasc hdue h
    rw [Chip.chanTo_of_not_due hdue, Chip.ctlTo_of_not_due hdue]
    exact ⟨hchan, hctl⟩

/-- A reconciliation at `c₁` has led channel `x` from `chip` to `chip₁`. -/
structure ReconciledTo (x : Channel) (c₁ : Cycle) (chip chip₁ : Chip) : Prop where
  chan : chip₁.chan x = chip.chanTo x c₁
  ctl : chip₁.ctl x = chip.ctlTo x c₁

/-- The reconciliations at `c₂` of `chip` and of `chip₁`, reconciled at `c₁`, agree on channel `x`. -/
structure AgreesAfter (x : Channel) (c₁ c₂ : Cycle) (chip chip₁ : Chip) : Prop where
  chan : chip₁.chanTo x c₂ = chip.chanTo x c₂
  ctl : chip₁.ctlTo x c₂ = chip.ctlTo x c₂
  takes : chip.takes x c₁ + chip₁.takes x c₂ = chip.takes x c₂
  fits : chip₁.UnderflowDue x c₂ → chip.UnderflowDue x c₂ ∧ chip₁.oneShot x = chip.oneShot x ∧
    chip₁.rescheduled x c₂ = chip.rescheduled x c₂

/-! ### A first reconciliation that takes nothing -/

theorem min_live {n a b : Nat} (h : b ≤ a) : min (min n a) b = min n b := by omega

theorem agreesAfter_of_not_due (hc : c₁ ≤ c₂) (h : ReconciledTo x c₁ chip chip₁) (hdue : ¬chip.UnderflowDue x c₁) :
    AgreesAfter x c₁ c₂ chip chip₁ := by
  obtain ⟨hchan, hctl⟩ := h
  rw [Chip.chanTo_of_not_due hdue] at hchan
  rw [Chip.ctlTo_of_not_due hdue] at hctl
  have hu : (chip₁.chan x).u = (chip.chan x).u := by rw [hchan]
  have hlatch : (chip₁.chan x).latch = (chip.chan x).latch := by rw [hchan]
  have htoggle : (chip₁.chan x).toggle = (chip.chan x).toggle := by rw [hchan]
  have hshot := Chip.oneShot_congr hctl
  have hcount : chip₁.underflowsTo x c₂ = chip.underflowsTo x c₂ := by
    rw [Chip.underflowsTo, hshot, hu, Chip.period, hlatch]
    rfl
  have hresched : chip₁.rescheduled x c₂ = chip.rescheduled x c₂ := by
    rw [Chip.rescheduled, hcount, hu, Chip.period, hlatch]
    rfl
  have huAfter : chip₁.uAfter x c₂ = chip.uAfter x c₂ := by rw [Chip.uAfter, hresched, hshot, Chip.uAfter]
  have hsame : chip₁.UnderflowDue x c₂ ↔ chip.UnderflowDue x c₂ := by
    unfold Chip.UnderflowDue
    rw [Chip.chanState_congr hctl, hu]
  by_cases hlater : chip.UnderflowDue x c₂
  case pos =>
    have hlater₁ := hsame.mpr hlater
    refine ⟨?_, ?_, ?_, fun _ => ⟨hlater, hshot, hresched⟩⟩
    · rw [Chip.chanTo_of_due hlater₁, Chip.chanTo_of_due hlater, Chip.reloaded, Chip.reloaded, hlatch, htoggle, hcount,
        huAfter, hshot]
    · rw [Chip.ctlTo_of_due hlater₁, Chip.ctlTo_of_due hlater, Chip.ctlAfter_congr hctl]
    · rw [Chip.takes_of_not_due hdue, Chip.takes_of_due hlater₁, Chip.takes_of_due hlater, hcount, Nat.zero_add]
  case neg =>
    have hlater₁ := hsame.not.mpr hlater
    have hlive : chip₁.live x c₂ = chip.live x c₂ := by
      by_cases hrun : chip.chanState x = .running
      · have hrun₁ := (Chip.chanState_congr hctl).trans hrun
        have hcnt : (chip₁.chan x).cnt.toNat = min (chip.chan x).cnt.toNat ((chip.chan x).u.toNat - c₁.toNat) := by
          rw [hchan, Chip.live_of_running hrun]
          exact toNat_ofNat_min_count _ _
        have hle := BitVec.le_def.mp hc
        rw [Chip.live_of_running hrun₁, Chip.live_of_running hrun, hu, hcnt, min_live (by omega)]
      · have hidle₁ : chip₁.chanState x ≠ .running := by rwa [Chip.chanState_congr hctl]
        rw [Chip.live_of_idle hidle₁, hchan, Chip.live_of_idle hrun, Chip.live_of_idle hrun]
    refine ⟨?_, ?_, ?_, fun hlater₁ => ⟨hsame.mp hlater₁, hshot, hresched⟩⟩
    · rw [Chip.chanTo_of_not_due hlater₁, Chip.chanTo_of_not_due hlater, hlive, hchan]
    · rw [Chip.ctlTo_of_not_due hlater₁, Chip.ctlTo_of_not_due hlater, hctl]
    · rw [Chip.takes_of_not_due hdue, Chip.takes_of_not_due hlater₁, Chip.takes_of_not_due hlater]

/-! ### A first reconciliation that stops the channel -/

theorem Chip.UnderflowDue.later (h : chip.UnderflowDue x c₁) (hc : c₁ ≤ c₂) : chip.UnderflowDue x c₂ :=
  ⟨h.1, BitVec.le_trans h.2 hc⟩

theorem agreesAfter_of_oneShot (hc : c₁ ≤ c₂) (h : ReconciledTo x c₁ chip chip₁) (hdue : chip.UnderflowDue x c₁)
    (hshot : chip.oneShot x = true) : AgreesAfter x c₁ c₂ chip chip₁ := by
  obtain ⟨hchan, hctl⟩ := h
  have hlater := hdue.later hc
  have hcount (c : Cycle) : chip.underflowsTo x c = 1 := by
    unfold Chip.underflowsTo underflowCount
    rw [hshot, if_pos rfl]
  have huAfter (c : Cycle) : chip.uAfter x c = never := by rw [Chip.uAfter, hshot, if_pos rfl]
  have hstopped : chip₁.chanState x ≠ .running := by
    rw [Chip.chanState, hctl, Chip.ctlTo_of_due hdue, Chip.ctlAfter, hshot, if_pos rfl, ctlState_clearStart]
    decide
  have hnot : ¬chip₁.UnderflowDue x c₂ := fun hdue₁ => hstopped hdue₁.1
  refine ⟨?_, ?_, ?_, fun hdue₁ => absurd hdue₁ hnot⟩
  · rw [Chip.chanTo_of_not_due hnot, Chip.live_of_idle hstopped, hchan, Chip.chanTo_of_due hdue, Chip.chanTo_of_due hlater,
      Chip.reloaded, Chip.reloaded, hshot, hcount, hcount, huAfter, huAfter]
    rfl
  · rw [Chip.ctlTo_of_not_due hnot, hctl, Chip.ctlTo_of_due hdue, Chip.ctlTo_of_due hlater]
  · rw [Chip.takes_of_due hdue, Chip.takes_of_not_due hnot, Chip.takes_of_due hlater, hcount, hcount]

/-! ### A first reconciliation that reloads the channel -/

/-- The underflows with period `P`, the first at `e`, up to `b` and from there on. -/
theorem underflows_split {e P a b : Nat} (hP : 0 < P) (hab : a ≤ b) (hea : e ≤ a) :
    (e + (1 + (a - e) / P) * P ≤ b →
      1 + (a - e) / P + (1 + (b - (e + (1 + (a - e) / P) * P)) / P) = 1 + (b - e) / P) ∧
    (b < e + (1 + (a - e) / P) * P → 1 + (b - e) / P = 1 + (a - e) / P) := by
  generalize hn : 1 + (a - e) / P = n
  constructor
  · intro hle
    have hsplit : b - e = b - (e + n * P) + n * P := by omega
    rw [hsplit, Nat.add_mul_div_right _ _ hP]
    omega
  · intro hlt
    have hlow : (a - e) / P ≤ (b - e) / P := Nat.div_le_div_right (by omega)
    have hhigh : (b - e) / P < n := (Nat.div_lt_iff_lt_mul hP).mpr (by omega)
    omega

theorem Chip.underflowsTo_of_continuous (hshot : chip.oneShot x = false) :
    chip.underflowsTo x c = 1 + (c.toNat - (chip.chan x).u.toNat) / chip.period x := by
  unfold Chip.underflowsTo underflowCount
  rw [hshot]
  rfl

theorem flip_flip (m n : Nat) (b : Bool) :
    (if n % 2 = 1 then !(if m % 2 = 1 then !b else b) else if m % 2 = 1 then !b else b) =
      if (m + n) % 2 = 1 then !b else b := by
  rcases Nat.mod_two_eq_zero_or_one n with hn | hn
  · have hsame : (m + n) % 2 = m % 2 := by omega
    rw [if_neg (by omega), hsame]
  · have hnext : (m + n) % 2 = (m + 1) % 2 := by omega
    rw [if_pos hn, hnext, flip_of_parity]

theorem agreesAfter_of_continuous (hc : c₁ ≤ c₂) (h : ReconciledTo x c₁ chip chip₁) (hdue : chip.UnderflowDue x c₁)
    (hshot : chip.oneShot x = false) (hfits : chip.rescheduled x c₁ < neverNat) : AgreesAfter x c₁ c₂ chip chip₁ := by
  obtain ⟨hchan, hctl⟩ := h
  have hlater := hdue.later hc
  rw [Chip.chanTo_of_due hdue, hshot] at hchan
  rw [Chip.ctlTo_of_due hdue, Chip.ctlAfter, hshot] at hctl
  change chip₁.ctl x = chip.ctl x at hctl
  have hshot₁ := (Chip.oneShot_congr hctl).trans hshot
  have hlatch : (chip₁.chan x).latch = (chip.chan x).latch := by rw [hchan]; rfl
  have hu : (chip₁.chan x).u = chip.uAfter x c₁ := by rw [hchan]; rfl
  have hnat : (chip.uAfter x c₁).toNat = chip.rescheduled x c₁ := by
    rw [Chip.uAfter, hshot]
    exact toNat_ofNat_cycle hfits
  have hperiod : chip₁.period x = chip.period x := by rw [Chip.period, hlatch, Chip.period]
  have hcounts := underflows_split (P := chip.period x) (Nat.succ_pos _) (BitVec.le_def.mp hc) (BitVec.le_def.mp hdue.2)
  rw [← Chip.underflowsTo_of_continuous hshot, ← Chip.underflowsTo_of_continuous hshot] at hcounts
  change (chip.rescheduled x c₁ ≤ _ → _ + (1 + (_ - chip.rescheduled x c₁) / _) = _) ∧
    (_ < chip.rescheduled x c₁ → _) at hcounts
  have hdue₁ : chip₁.UnderflowDue x c₂ ↔ chip.rescheduled x c₁ ≤ c₂.toNat := by
    unfold Chip.UnderflowDue
    rw [Chip.chanState_congr hctl, hu, BitVec.le_def, hnat]
    exact and_iff_right hdue.1
  by_cases hnext : chip₁.UnderflowDue x c₂
  case pos =>
    have hcount : chip.underflowsTo x c₁ + chip₁.underflowsTo x c₂ = chip.underflowsTo x c₂ := by
      rw [Chip.underflowsTo_of_continuous hshot₁, hu, hnat, hperiod]
      exact hcounts.1 (hdue₁.mp hnext)
    have hresched : chip₁.rescheduled x c₂ = chip.rescheduled x c₂ := by
      rw [Chip.rescheduled, hu, hnat, hperiod, Chip.rescheduled, Nat.add_assoc, ← Nat.add_mul, hcount]
      rfl
    have huAfter : chip₁.uAfter x c₂ = chip.uAfter x c₂ := by
      rw [Chip.uAfter, hresched, hshot₁, Chip.uAfter, hshot]
    have htoggle : (chip₁.chan x).toggle =
        if chip.underflowsTo x c₁ % 2 = 1 then !(chip.chan x).toggle else (chip.chan x).toggle := by
      rw [hchan]
      rfl
    refine ⟨?_, ?_, ?_, fun _ => ⟨hlater, hshot₁.trans hshot.symm, hresched⟩⟩
    · rw [Chip.chanTo_of_due hnext, Chip.chanTo_of_due hlater, Chip.reloaded, Chip.reloaded, hlatch, huAfter, hshot,
        hshot₁, htoggle, flip_flip, hcount]
    · rw [Chip.ctlTo_of_due hnext, Chip.ctlTo_of_due hlater, Chip.ctlAfter_congr hctl]
    · rw [Chip.takes_of_due hdue, Chip.takes_of_due hnext, Chip.takes_of_due hlater, hcount]
  case neg =>
    have hcount : chip.underflowsTo x c₂ = chip.underflowsTo x c₁ :=
      hcounts.2 (Nat.lt_of_not_le (hdue₁.not.mp hnext))
    have huAfter : chip.uAfter x c₂ = chip.uAfter x c₁ := by
      rw [Chip.uAfter, Chip.rescheduled, hcount]
      rfl
    have hcnt : (chip₁.chan x).cnt.toNat =
        min (chip.chan x).latch.toNat ((chip.uAfter x c₁).toNat - c₁.toNat) := by
      rw [hchan]
      exact toNat_ofNat_min_count _ _
    have hrun : chip₁.chanState x = .running := (Chip.chanState_congr hctl).trans hdue.1
    have hle := BitVec.le_def.mp hc
    refine ⟨?_, ?_, ?_, fun hdue₁ => absurd hdue₁ hnext⟩
    · rw [Chip.chanTo_of_not_due hnext, Chip.live_of_running hrun, hcnt, hu, min_live (by omega), hchan,
        Chip.chanTo_of_due hlater, Chip.reloaded, Chip.reloaded, hshot, huAfter, hcount]
      rfl
    · rw [Chip.ctlTo_of_not_due hnext, hctl, Chip.ctlTo_of_due hlater, Chip.ctlAfter, hshot]
      rfl
    · rw [Chip.takes_of_due hdue, Chip.takes_of_not_due hnext, Chip.takes_of_due hlater, hcount, Nat.add_zero]

/-- Two reconciliations come to the later of them for each channel (43_chip_timers.md R169). -/
theorem agreesAfter (hc : c₁ ≤ c₂) (h : ReconciledTo x c₁ chip chip₁)
    (hfits : chip.UnderflowDue x c₁ → chip.oneShot x = true ∨ chip.rescheduled x c₁ < neverNat) :
    AgreesAfter x c₁ c₂ chip chip₁ := by
  by_cases hdue : chip.UnderflowDue x c₁
  case neg => exact agreesAfter_of_not_due hc h hdue
  case pos =>
    cases hshot : chip.oneShot x with
    | true => exact agreesAfter_of_oneShot hc h hdue hshot
    | false => exact agreesAfter_of_continuous hc h hdue hshot ((hfits hdue).resolve_left (by simp [hshot]))

/-- A cycle value that fits at a later cycle fits at an earlier one (43_chip_timers.md R163, R169). -/
theorem fits_of_later (hc : c₁ ≤ c₂) (h : chip.oneShot x = true ∨ chip.rescheduled x c₂ < neverNat) :
    chip.oneShot x = true ∨ chip.rescheduled x c₁ < neverNat := by
  cases hshot : chip.oneShot x with
  | true => exact .inl rfl
  | false =>
    have hlt := h.resolve_left (by simp [hshot])
    have hle : c₁.toNat - (chip.chan x).u.toNat ≤ c₂.toNat - (chip.chan x).u.toNat :=
      Nat.sub_le_sub_right (BitVec.le_def.mp hc) _
    have hcount : chip.underflowsTo x c₁ ≤ chip.underflowsTo x c₂ := by
      rw [Chip.underflowsTo_of_continuous hshot, Chip.underflowsTo_of_continuous hshot]
      exact Nat.add_le_add_left (Nat.div_le_div_right hle) 1
    exact .inr (Nat.lt_of_le_of_lt (Nat.add_le_add_left (Nat.mul_le_mul_right _ hcount) _) hlt)

end

end Sys2Proof.Machine
end

section
/-! Fast-forward (43_chip_timers.md R169): a reconciliation at `c₁` and one at `c₂` after it reach the chip, the alarms
and the sources of the one at `c₂`. -/

namespace Sys2Proof.Machine

section
variable {k : Nat} {x : Channel} {c c₁ c₂ : Cycle} {s t s₁ s₁₂ s₂ : State}

/-! ### The reconciliations succeed -/

/-- A channel that is due in the second part of a reconciliation is due, and reschedules alike, before the first
(43_chip_timers.md R166). -/
theorem due_B_chanCatchUp_A (hk : k < s.chips.length) (h : chanCatchUp k .A c s = .ok t)
    (hdue : (t.chip k).UnderflowDue .B c) :
    (s.chip k).UnderflowDue .B c ∧ (t.chip k).oneShot .B = (s.chip k).oneShot .B ∧
      (t.chip k).rescheduled .B c = (s.chip k).rescheduled .B c := by
  have hrun := (running_B_chanCatchUp_A hk h).mp hdue.1
  have hcasc : ¬(s.chip k).Cascaded .B := fun hcasc => nomatch hrun.symm.trans hcasc.2
  have hapart : ApartFrom k .B c s t := ApartFrom.chanCatchUp (by decide) hk hcasc h
  refine ⟨(Chip.underflowDue_congr hapart.chan hapart.ctl c).mp hdue, Chip.oneShot_congr hapart.ctl, ?_⟩
  rw [Chip.rescheduled, Chip.period, hapart.chan, Chip.underflowsTo_congr hapart.chan hapart.ctl]
  rfl

/-- A reconciliation succeeds where the next underflow of every due channel fits (43_chip_timers.md R163, R166). -/
theorem updateTo_of_fits (hk : k < s.chips.length) (hrc : (s.chip k).rc ≤ c)
    (hfits : ∀ x, (s.chip k).UnderflowDue x c → (s.chip k).oneShot x = true ∨ (s.chip k).rescheduled x c < neverNat) :
    ∃ t, updateTo k c s = .ok t := by
  have hcatch {x : Channel} {s : State}
      (hfits : (s.chip k).UnderflowDue x c → (s.chip k).oneShot x = true ∨ (s.chip k).rescheduled x c < neverNat) :
      ∃ t, chanCatchUp k x c s = .ok t := by
    by_cases hdue : (s.chip k).UnderflowDue x c
    · exact ⟨_, chanCatchUp_of_due hdue (hfits hdue)⟩
    · exact ⟨_, chanCatchUp_of_not_due hdue⟩
  obtain ⟨t, hA⟩ := hcatch (hfits .A)
  obtain ⟨u, hB⟩ := hcatch (x := .B) (s := t) fun hdue => by
    obtain ⟨hdueB, hshot, hresched⟩ := due_B_chanCatchUp_A hk hA hdue
    rw [hshot, hresched]
    exact hfits .B hdueB
  exact ⟨_, updateTo_eq_ok.mpr ⟨hrc, t, u, hA, hB, rfl⟩⟩

theorem reconciledTo_updateTo (hk : k < s.chips.length) (hslot : slotOf k x < s.alarms.length)
    (hcasc : ¬(s.chip k).Cascaded x) (h : updateTo k c s = .ok t) : ReconciledTo x c (s.chip k) (t.chip k) := by
  obtain ⟨hchan, hctl⟩ := updateTo_chanTo hk hslot hcasc h
  exact ⟨hchan, hctl⟩

theorem Chip.ctlTo_cases (chip : Chip) (x : Channel) (c : Cycle) :
    ctlState x (chip.ctlTo x c) = .stopped ∨ chip.ctlTo x c = chip.ctl x := by
  by_cases hdue : chip.UnderflowDue x c
  · rw [Chip.ctlTo_of_due hdue]
    exact chip.chanState_ctlAfter x
  · exact .inr (Chip.ctlTo_of_not_due hdue)

theorem not_cascaded_of_reconciledTo {chip chip₁ : Chip} (h : ReconciledTo x c chip chip₁) (hcasc : ¬chip.Cascaded x) :
    ¬chip₁.Cascaded x := by
  rintro ⟨hx, hstate⟩
  rw [Chip.chanState, h.ctl] at hstate
  rcases chip.ctlTo_cases x c with hstopped | hsame
  · exact nomatch hstopped.symm.trans hstate
  · rw [hsame] at hstate
    exact hcasc ⟨hx, hstate⟩

theorem readBefore_of_inv (hread : ∀ r ∈ (s.chip k).lastRead, r ≤ (s.chip k).rc) (hchan : ∀ x, ChanInv s k x) :
    (s.chip k).ReadBefore := fun x hrun r hr =>
  Nat.lt_of_le_of_lt (BitVec.le_def.mp (hread r hr)) (BitVec.lt_def.mp ((hchan x).running_after hrun))

/-! ### The tables -/

/-- The slot of a channel is as its next underflow (43_chip_timers.md R162). -/
theorem alarm_eq_of_chanInv (hs : ChanInv s k x) (ht : ChanInv t k x) (hchip : s.chip k = t.chip k) :
    s.alarm (slotOf k x) = t.alarm (slotOf k x) := by
  by_cases hrun : (s.chip k).chanState x = .running
  · rw [hs.running_armed hrun, ht.running_armed (hchip ▸ hrun), hchip]
  · rw [hs.idle_disarmed hrun, ht.idle_disarmed (hchip ▸ hrun)]

theorem eq_of_getD_eq {α : Type} {d : α} {l m : List α} (hlen : l.length = m.length)
    (h : ∀ i, l.getD i d = m.getD i d) : l = m := by
  refine List.ext_getElem hlen fun i hl hm => ?_
  have hi := h i
  rwa [List.getD_eq_getElem _ _ hl, List.getD_eq_getElem _ _ hm] at hi

/-! ### Two reconciliations -/

section
variable (hinv : s.Inv) (hk : k < s.cfg.nchip) (hc : c₁ ≤ c₂) (h₁ : updateTo k c₁ s = .ok s₁)
include hinv hk hc h₁

theorem agreesAfter_updateTo (hcasc : ¬(s.chip k).Cascaded x) : AgreesAfter x c₁ c₂ (s.chip k) (s₁.chip k) :=
  agreesAfter hc (reconciledTo_updateTo (hinv.chip_lt hk) (hinv.slotOf_lt hk x) hcasc h₁)
    fun hdue => fits_of_updateTo (hinv.chip_lt hk) hdue h₁

/-- Where a channel is due in the second reconciliation it would be due in it without the first. -/
theorem fits_of_updateTo_twice (h₂ : updateTo k c₂ s = .ok s₂) (hdue : (s₁.chip k).UnderflowDue x c₂) :
    (s₁.chip k).oneShot x = true ∨ (s₁.chip k).rescheduled x c₂ < neverNat := by
  have hcasc : ¬(s.chip k).Cascaded x := by
    rintro ⟨rfl, hstate⟩
    exact (updateTo_cascaded (hinv.chip_lt hk) hstate h₁).1 hdue.1
  obtain ⟨hdue₂, hshot, hresched⟩ := (agreesAfter_updateTo hinv hk hc h₁ hcasc).fits hdue
  rw [hshot, hresched]
  exact fits_of_updateTo (hinv.chip_lt hk) hdue₂ h₂

omit hc in
theorem chanInv_and_readBefore : (∀ x, ChanInv s₁ k x) ∧ (s₁.chip k).ReadBefore := by
  have hchip := hinv.chip k hk
  have hchan (x : Channel) : ChanInv s₁ k x := (hchip.chan x).updateTo (hinv.chip_lt hk) (hinv.slotOf_lt hk x) h₁
  refine ⟨hchan, readBefore_of_inv (fun r hr => ?_) hchan⟩
  rw [(Reconciling.updateTo h₁).kept.lastRead] at hr
  rw [rc_updateTo (hinv.chip_lt hk) h₁]
  exact BitVec.le_trans (hchip.lastRead_le r hr) (updateTo_eq_ok.mp h₁).1

variable (h₁₂ : updateTo k c₂ s₁ = .ok s₁₂) (h₂ : updateTo k c₂ s = .ok s₂)
include h₁₂ h₂

theorem chan_fastForward (hcasc : ¬(s.chip k).Cascaded x) :
    (s₁₂.chip k).chan x = (s₂.chip k).chan x ∧ (s₁₂.chip k).ctl x = (s₂.chip k).ctl x := by
  have hlen := hinv.chip_lt hk
  have hslot := hinv.slotOf_lt hk x
  have honly := OnlyChip.updateTo h₁
  have hcasc₁ := not_cascaded_of_reconciledTo (reconciledTo_updateTo hlen hslot hcasc h₁) hcasc
  obtain ⟨hchan, hctl, -⟩ := agreesAfter_updateTo hinv hk hc h₁ hcasc
  obtain ⟨hchan₁₂, hctl₁₂⟩ := updateTo_chanTo (by rwa [honly.chips_length]) (by rwa [honly.alarms_length]) hcasc₁ h₁₂
  obtain ⟨hchan₂, hctl₂⟩ := updateTo_chanTo hlen hslot hcasc h₂
  exact ⟨by rw [hchan₁₂, hchan, hchan₂], by rw [hctl₁₂, hctl, hctl₂]⟩

omit hc in
theorem rc_fastForward : (s₁₂.chip k).rc = (s₂.chip k).rc := by
  have hlen := hinv.chip_lt hk
  rw [rc_updateTo (by rwa [(OnlyChip.updateTo h₁).chips_length]) h₁₂, rc_updateTo hlen h₂]

/-- Where channel B is cascaded the underflows of channel A add up, and channel B counts all of them. -/
theorem chip_fastForward_of_cascaded (hB : (s.chip k).chanState .B = .runningCascade) : s₁₂.chip k = s₂.chip k := by
  have hlen := hinv.chip_lt hk
  have honly := OnlyChip.updateTo h₁
  have hread := readBefore_of_inv (hinv.chip k hk).lastRead_le (hinv.chip k hk).chan
  have hread₁ := (chanInv_and_readBefore hinv hk h₁).2
  have hidle : (s.chip k).chanState .B ≠ .running := by rw [hB]; decide
  have hidle₁ := (updateTo_cascaded hlen hB h₁).1
  have htakes := (agreesAfter_updateTo (x := .A) hinv hk hc h₁ fun hcasc => nomatch hcasc.1).takes
  obtain ⟨hchan, hctl⟩ := chan_fastForward (x := .A) hinv hk hc h₁ h₁₂ h₂ fun hcasc => nomatch hcasc.1
  have hrest : (s₁₂.chip k).untimedA = (s₂.chip k).untimedA := by
    rw [untimedA_updateTo (by rwa [honly.chips_length]) hread₁ hidle₁ h₁₂, honly.cfg, untimedA_updateTo hlen hread hidle h₁,
      ← Function.iterate_add_apply, Nat.add_comm, htakes, untimedA_updateTo hlen hread hidle h₂]
  have hrc := rc_fastForward hinv hk h₁ h₁₂ h₂
  have htimed (d : Chip) : d = { d.untimedA with chanA := d.chan .A, cra := d.ctl .A, rc := d.rc } := rfl
  rw [htimed (s₁₂.chip k), hrest, hchan, hctl, hrc]
  rfl

/-- Where channel B is not cascaded the underflows of each channel add up. -/
theorem chip_fastForward_of_not_cascaded (hB : (s.chip k).chanState .B ≠ .runningCascade) : s₁₂.chip k = s₂.chip k := by
  have hlen := hinv.chip_lt hk
  have honly := OnlyChip.updateTo h₁
  have hread := readBefore_of_inv (hinv.chip k hk).lastRead_le (hinv.chip k hk).chan
  have hread₁ := (chanInv_and_readBefore hinv hk h₁).2
  have hcasc (x : Channel) : ¬(s.chip k).Cascaded x := by
    rintro ⟨rfl, hstate⟩
    exact hB hstate
  have hB₁ : (s₁.chip k).chanState .B ≠ .runningCascade := fun hstate => not_cascaded_of_reconciledTo
    (reconciledTo_updateTo hlen (hinv.slotOf_lt hk .B) (hcasc .B) h₁) (hcasc .B) ⟨rfl, hstate⟩
  have htakes (x : Channel) := (agreesAfter_updateTo (x := x) hinv hk hc h₁ (hcasc x)).takes
  obtain ⟨hchanA, hctlA⟩ := chan_fastForward (x := .A) hinv hk hc h₁ h₁₂ h₂ (hcasc .A)
  obtain ⟨hchanB, hctlB⟩ := chan_fastForward (x := .B) hinv hk hc h₁ h₁₂ h₂ (hcasc .B)
  have hcommute (m n : Nat) := (Chip.commute_underflowA_flagged (early := s.cfg.srEarly) (bit := flagOf .B)).iterate_iterate m n
  have hrest : (s₁₂.chip k).untimed = (s₂.chip k).untimed := by
    rw [untimed_updateTo (by rwa [honly.chips_length]) hread₁ hB₁ h₁₂, honly.cfg, untimed_updateTo hlen hread hB h₁,
      (hcommute _ _).eq, ← Function.iterate_add_apply, ← Function.iterate_add_apply, Nat.add_comm, htakes .B, Nat.add_comm,
      htakes .A, untimed_updateTo hlen hread hB h₂]
  have hrc := rc_fastForward hinv hk h₁ h₁₂ h₂
  have htimed (d : Chip) : d = { d.untimed with
    chanA := d.chan .A, cra := d.ctl .A, chanB := d.chan .B, crb := d.ctl .B, rc := d.rc } := rfl
  rw [htimed (s₁₂.chip k), hrest, hchanA, hctlA, hchanB, hctlB, hrc]
  rfl

theorem chip_fastForward : s₁₂.chip k = s₂.chip k := by
  by_cases hB : (s.chip k).chanState .B = .runningCascade
  · exact chip_fastForward_of_cascaded hinv hk hc h₁ h₁₂ h₂ hB
  · exact chip_fastForward_of_not_cascaded hinv hk hc h₁ h₁₂ h₂ hB

end

end

/-- Settles O51: the chips agree (`chip_fastForward`), the slots of its channels go with the chip, its source with the
flags, and every other chip, slot and source is left alone. -/
theorem fastForwardEquivalence : Obligations.FastForwardEquivalence := by
  unfold Obligations.FastForwardEquivalence
  intro s s₂ k c₁ c₂ hinv hk hrc hc h₂
  have hlen := hinv.chip_lt hk
  obtain ⟨s₁, h₁⟩ := updateTo_of_fits hlen hrc fun x hdue =>
    fits_of_later hc (fits_of_updateTo hlen (hdue.later hc) h₂)
  have honly₁ := OnlyChip.updateTo h₁
  have hlen₁ : k < s₁.chips.length := by rwa [honly₁.chips_length]
  obtain ⟨s₁₂, h₁₂⟩ := updateTo_of_fits (c := c₂) hlen₁ (by rw [rc_updateTo hlen h₁]; exact hc)
    fun x hdue => fits_of_updateTo_twice hinv hk hc h₁ h₂ hdue
  have honly₁₂ := honly₁.trans (OnlyChip.updateTo h₁₂)
  have honly₂ := OnlyChip.updateTo h₂
  have hwork₁₂ := (Reconciling.updateTo_within hc h₁).trans (Reconciling.updateTo h₁₂)
  have hwork₂ := Reconciling.updateTo h₂
  have hchip := chip_fastForward hinv hk hc h₁ h₁₂ h₂
  have hslot (x : Channel) : s₁₂.alarm (slotOf k x) = s₂.alarm (slotOf k x) := by
    have hchan₁ := (chanInv_and_readBefore hinv hk h₁).1 x
    have hchan₁₂ := hchan₁.updateTo hlen₁ (by rw [honly₁.alarms_length]; exact hinv.slotOf_lt hk x) h₁₂
    exact alarm_eq_of_chanInv hchan₁₂ (((hinv.chip k hk).chan x).updateTo hlen (hinv.slotOf_lt hk x) h₂) hchip
  refine ⟨s₁, s₁₂, h₁, h₁₂, ?_, ?_, ?_⟩
  · refine eq_of_getD_eq (d := Chip.absent) (honly₁₂.chips_length.trans honly₂.chips_length.symm) fun j => ?_
    change s₁₂.chip j = s₂.chip j
    by_cases hj : j = k
    · rw [hj, hchip]
    · rw [honly₁₂.chip j hj, honly₂.chip j hj]
  · refine eq_of_getD_eq (d := Alarm.absent) (honly₁₂.alarms_length.trans honly₂.alarms_length.symm) fun a => ?_
    change s₁₂.alarm a = s₂.alarm a
    by_cases hA : a = slotOf k .A
    · rw [hA, hslot]
    by_cases hB : a = slotOf k .B
    · rw [hB, hslot]
    by_cases htod : a = todSlot k
    · rw [htod, hwork₁₂.alarm_tod, hwork₂.alarm_tod]
    · rw [honly₁₂.alarm a hA hB htod, honly₂.alarm a hA hB htod]
  · refine eq_of_getD_eq (d := false) (honly₁₂.src_length.trans honly₂.src_length.symm) fun n => ?_
    change s₁₂.source n = s₂.source n
    by_cases hn : n = k
    · rw [hn, (hwork₁₂.tracked (hinv.tracked hk)).source_eq, (hwork₂.tracked (hinv.tracked hk)).source_eq, hchip]
    · rw [honly₁₂.source n hn, honly₂.source n hn]

end Sys2Proof.Machine
end

section
/-! The ports and the plain registers of a chip (44_chip_icr_sdr_ports.md R216 to R230; 43_chip_timers.md R196, R197):
a read answers a byte of the state that the opening leads to, a write replaces one register there. -/

namespace Sys2Proof.Machine

section
variable {k m : Nat} {s t : State}

/-! ### Bits of the port bytes -/

/-- Which bit of a byte a toggle bit overrides (44_chip_icr_sdr_ports.md R226). -/
theorem getLsbD_toggled {keep mark : Byte} {j : Nat} (v : Byte) (b : Bool)
    (hkeep : ∀ i < 8, keep.getLsbD i = decide (i ≠ j)) (hmark : ∀ i < 8, mark.getLsbD i = decide (i = j))
    {i : Nat} (hi : i < 8) :
    ((v &&& keep) ||| (if b then mark else 0)).getLsbD i = if i = j then b else v.getLsbD i := by
  have hbit : (if b then mark else (0 : Byte)).getLsbD i = (b && decide (i = j)) := by
    cases b with
    | true => exact hmark i hi
    | false => exact BitVec.getLsbD_zero
  rw [BitVec.getLsbD_or, BitVec.getLsbD_and, hkeep i hi, hbit]
  by_cases hij : i = j <;> simp [hij]

/-- The two toggle bits override bits 6 and 7 (44_chip_icr_sdr_ports.md R226). -/
theorem Chip.getLsbD_mux (c : Chip) (v : Byte) {i : Nat} (hi : i < 8) :
    (c.mux v).getLsbD i =
      if i = 6 ∧ c.cra.getLsbD 1 = true then c.chanA.toggle
      else if i = 7 ∧ c.crb.getLsbD 1 = true then c.chanB.toggle
      else v.getLsbD i := by
  have h6 (w : Byte) (b : Bool) : ((w &&& 0xBF) ||| (if b then 0x40 else 0)).getLsbD i = if i = 6 then b else w.getLsbD i :=
    getLsbD_toggled w b (by decide) (by decide) hi
  have h7 (w : Byte) (b : Bool) : ((w &&& 0x7F) ||| (if b then 0x80 else 0)).getLsbD i = if i = 7 then b else w.getLsbD i :=
    getLsbD_toggled w b (by decide) (by decide) hi
  unfold Chip.mux
  cases c.cra.getLsbD 1 <;> cases c.crb.getLsbD 1 <;>
    simp only [Bool.false_eq_true, ↓reduceIte, h6, h7, and_true, and_false]
  by_cases hi6 : i = 6
  · simp [hi6]
  · simp [hi6]

/-- A driven pin carries its output bit, another reads as 1 (44_chip_icr_sdr_ports.md R226). -/
theorem getLsbD_driven (out dir : Byte) {i : Nat} (hi : i < 8) :
    (out ||| ~~~dir).getLsbD i = (out.getLsbD i || !dir.getLsbD i) := by
  simp [hi]

/-- A driven pin carries its output bit, another its input bit (44_chip_icr_sdr_ports.md R226). -/
theorem getLsbD_pins (out dir inp : Byte) {i : Nat} (hi : i < 8) :
    ((out &&& dir) ||| (inp &&& ~~~dir)).getLsbD i = if dir.getLsbD i then out.getLsbD i else inp.getLsbD i := by
  rw [BitVec.getLsbD_or, BitVec.getLsbD_and, BitVec.getLsbD_and, BitVec.getLsbD_not, decide_eq_true hi]
  cases dir.getLsbD i <;> simp

/-! ### Operations that do not reconcile -/

/-- An operation on a chip that does not reconcile it acts on the state that the dispatch leads to
(41_alarm_scheduler.md R130; 60_exceptions.md R287). -/
theorem perform_onChip (hfault : s.fault = none) (hk : k < s.cfg.nchip) (hdispatch : dispatch s = .ok (t, m))
    (body : State → Result) : perform s (fun s => onChip k s body) = .next (conclude s (body t)) := by
  rw [perform_of_none hfault, onChip, selectChip_ok hk, ok_bind, afterDispatch_of_ok hdispatch]

theorem exec_portIn (hfault : s.fault = none) (hk : k < s.cfg.nchip) (hdispatch : dispatch s = .ok (t, m)) (p : PortId)
    (v : Byte) : exec (.portIn k p v) s = .next ((setPortIn k p v t).answer .nothing) :=
  perform_onChip hfault hk hdispatch fun s => .ok (setPortIn k p v s, .nothing)

/-- The strobe bit of a control register reads as 0 (10_state.md R35, R36). -/
theorem getLsbD_strobe {v : Byte} (h : v &&& 0x10 = 0) : v.getLsbD 4 = false := by
  have hbit := congrArg (·.getLsbD 4) h
  simpa using hbit

end

/-! ### The statements -/

/-- Settles O38: a port byte is read off bit by bit, and `Chip.getLsbD_mux` says which bits the toggles override. -/
theorem portBytesBitwise : Obligations.PortBytesBitwise := by
  unfold Obligations.PortBytesBitwise
  refine ⟨fun _ _ _ => rfl, fun c i hi => ⟨getLsbD_driven _ _ hi, getLsbD_pins _ _ _ hi, ?_, ?_⟩⟩
  · rw [← getLsbD_driven _ _ hi]
    exact c.getLsbD_mux _ hi
  · rw [← getLsbD_pins _ _ _ hi]
    exact c.getLsbD_mux _ hi

/-- Settles O34: each of the reads answers its byte at the opened state, whose control registers hold no strobe bit. -/
theorem plainReadsReturn : Obligations.PlainReadsReturn := by
  unfold Obligations.PlainReadsReturn
  intro s k hready hk
  obtain ⟨t, h⟩ := opened_of_ready hready hk
  have hchip := h.ready.inv.chip k (h.nchip_lt hk)
  exact ⟨t, h.accessed, h.opens.perform_readChip _, h.opens.perform_readChip _, h.opens.perform_readChip _,
    h.opens.perform_readChip _, h.opens.perform_readChip _, h.opens.perform_readChip _, h.opens.perform_readChip _,
    getLsbD_strobe hchip.cra_strobe, getLsbD_strobe hchip.crb_strobe⟩

/-- Settles O35: each of the writes replaces its register at the opened state. -/
theorem portRegisterWritesStore : Obligations.PortRegisterWritesStore := by
  unfold Obligations.PortRegisterWritesStore
  intro s k v hready hk
  obtain ⟨t, h⟩ := opened_of_ready hready hk
  exact ⟨t, h.accessed, h.opens.perform_writeChip _, h.opens.perform_writeChip _, h.opens.perform_writeChip _,
    h.opens.perform_writeChip _⟩

/-- Settles O36: the operation dispatches and stores the byte (`exec_portIn`). -/
theorem portInStores : Obligations.PortInStores := by
  unfold Obligations.PortInStores
  intro s k v hready hk
  obtain ⟨t, m, hdispatch, -⟩ := dispatch_of_ready hready
  exact ⟨t, ⟨m, hdispatch⟩, exec_portIn hready.no_fault hk hdispatch .a v, exec_portIn hready.no_fault hk hdispatch .b v⟩

/-- Settles O37: the answer is the output byte of the port at the opened state. -/
theorem portOutReturnsWires : Obligations.PortOutReturnsWires := by
  unfold Obligations.PortOutReturnsWires
  intro s k p hready hk
  obtain ⟨t, h⟩ := opened_of_ready hready hk
  exact ⟨t, h.accessed, h.opens.perform_readChip _⟩

end Sys2Proof.Machine
end

section
/-! The flag read and the mask write (44_chip_icr_sdr_ports.md R211, R213, R214), and the read-wins rule between a flag
read and an external pulse at the same cycle (R210; 43_chip_timers.md R201). -/

namespace Sys2Proof.Machine

section
variable {k : Nat} {s t u : State}

/-! ### The flag read -/

/-- With no flag set the summary is false (44_chip_icr_sdr_ports.md R215). -/
theorem Chip.summary_of_no_flags {c : Chip} (h : c.flags = 0) : c.summary = false := by
  simp [Chip.summary, h]

/-- The flag read drops the source, which is no rising edge of any line (44_chip_icr_sdr_ports.md R211, R214). -/
theorem clearFlags_eq (hk : k < s.chips.length) (hsrc : k < s.src.length) :
    clearFlags k s = (s.setChip k { s.chip k with flags := 0x00, lastRead := some s.clk }).setSource k false := by
  rw [clearFlags, updateLine_setChip_eq hk, Chip.summary_of_no_flags rfl, aggSet, State.rises_false hsrc]
  rfl

theorem chip_clearFlags (hk : k < s.chips.length) :
    (clearFlags k s).chip k = { s.chip k with flags := 0x00, lastRead := some s.clk } := by
  rw [clearFlags, State.chip_updateLine, State.chip_setChip_self s _ hk]

/-- The byte of a flag read, its summary bit by the flags that are enabled (44_chip_icr_sdr_ports.md R211, R214). -/
theorem Chip.icrByte_eq (c : Chip) :
    c.icrByte = (c.flags &&& 0x0F) ||| (if c.flags &&& c.mask &&& 0x0F = 0 then 0 else 0x80) := by
  simp only [Chip.icrByte, Chip.summary, decide_eq_true_eq, ne_eq, ite_not]

theorem OpensTo.exec_chipReadIcr (h : OpensTo k s t) :
    exec (.chipReadIcr k) s = .next ((clearFlags k t).answer (.byte (t.chip k).icrByte)) :=
  h.perform_accessChip fun s => .ok (clearFlags k s, .byte (s.chip k).icrByte)

/-! ### After a flag read -/

/-- What a flag read leaves: a state that is ready, with nothing due and the chip's live counters stored, in which no flag
is set and the read is recorded (44_chip_icr_sdr_ports.md R211). -/
structure FlagsRead (k : Nat) (s t : State) : Prop where
  ready : t.Ready
  none_due : t.NoneDue
  cfg : t.cfg = s.cfg
  stored : storeLive k t.clk t = t
  flags : (t.chip k).flags = 0
  lastRead : (t.chip k).lastRead = some t.clk

theorem Opened.flagsRead (h : Opened k s t) (hk : k < s.cfg.nchip) (r : Reply) :
    FlagsRead k s ((clearFlags k t).answer r) := by
  have hlen := h.chip_lt hk
  have honly : OnlyChip k t (clearFlags k t) := (OnlyChip.setChip k _ t).trans (OnlyChip.updateLine k _ _)
  have halarms : (clearFlags k t).alarms = t.alarms := updateLine_alarms k _ _
  have hchip := chip_clearFlags hlen
  have hclk : (clearFlags k t).clk = t.clk := honly.clk
  have hinv := h.ready.inv.clearFlags (h.nchip_lt hk) (h.rc.trans h.clk.symm)
  refine ⟨⟨hinv.answer r, honly.fault.trans h.ready.no_fault, ?_⟩, ?_, honly.cfg.trans h.cfg, ?_, ?_, ?_⟩
  case refine_1 =>
    change (clearFlags k t).clk.toNat + 65538 + (clearFlags k t).cfg.todPeriod < neverNat
    rw [hclk, honly.cfg]
    exact h.ready.headroom
  case refine_2 =>
    change ∀ al ∈ (clearFlags k t).alarms, al.due (clearFlags k t).clk = false
    rw [halarms, hclk]
    exact h.none_due
  case refine_3 =>
    refine storeLive_of_stored (honly.chips_length.symm ▸ hlen) ?_ fun x => ?_
    · rw [State.chip_answer, hchip, State.answer_clk, hclk, h.clk]
      exact h.rc
    · rw [State.chip_answer, hchip, State.answer_clk, hclk, h.clk]
      have hlive := h.live x
      cases x <;> exact hlive.symm
  case refine_4 => rw [State.chip_answer, hchip]
  case refine_5 => rw [State.chip_answer, hchip, State.answer_clk, hclk]

/-- An access after a flag read has nothing to dispatch and nothing to store. -/
theorem FlagsRead.eq_of_accessedAs (h : FlagsRead k s t) (haccessed : AccessedAs t k u) : u = t := by
  obtain ⟨v, ⟨n, hdispatch⟩, rfl⟩ := haccessed
  cases hdispatch.symm.trans (dispatch_of_noneDue h.none_due)
  exact h.stored

/-- Which flags a pulse sets where no read has won (43_chip_timers.md R164; 44_chip_icr_sdr_ports.md R218). -/
theorem Chip.getLsbD_pulseFlags (c : Chip) (early : Option Nat) (i : Nat) :
    (c.pulseFlags early).getLsbD i = true ↔
      (i = 0 ∧ c.pulseUnderflows .A = true) ∨ (i = 1 ∧ c.pulseUnderflows .B = true) ∨
        (i = 3 ∧ c.pulseCompletes early = true) := by
  have hbit (b : Bool) (j : Nat) (hj : j < 8) :
      (if b then BitVec.twoPow 8 j else (0 : Byte)).getLsbD i = true ↔ i = j ∧ b = true := by
    cases b <;> simp [BitVec.getLsbD_twoPow, hj, eq_comm]
  have h0 := hbit (c.pulseUnderflows .A) 0 (by decide)
  have h1 := hbit (c.pulseUnderflows .B) 1 (by decide)
  have h3 := hbit (c.pulseCompletes early) 3 (by decide)
  unfold Chip.pulseFlags
  rw [BitVec.getLsbD_or, BitVec.getLsbD_or, Bool.or_eq_true, Bool.or_eq_true, or_assoc]
  exact or_congr h0 (or_congr h1 h3)

theorem State.chip_ite_setLineClk (b : Bool) (l : Line) (e : Cycle) (s : State) (k : Nat) :
    (if b then s.setLineClk l e else s).chip k = s.chip k := by
  cases b with
  | true => exact State.chip_setLineClk s l e k
  | false => rfl

/-- An external pulse at the cycle of the flag read: the chip is pulsed, its flags set only where the chip has no read-wins
rule (43_chip_timers.md R201; 44_chip_icr_sdr_ports.md R210). -/
theorem FlagsRead.exec_extPulse (h : FlagsRead k s t) (hk : k < s.cfg.nchip) :
    ∃ u, exec (.extPulse k) t = .next u ∧ u.chip k = (t.chip k).pulsed
      (if s.cfg.readWins.getD k false then 0 else (t.chip k).pulseFlags s.cfg.srEarly) := by
  have hk' : k < t.cfg.nchip := by rwa [h.cfg]
  obtain ⟨v, haccessed, hexec⟩ := extPulseCounts t k h.ready hk'
  obtain rfl := h.eq_of_accessedAs haccessed
  refine ⟨_, hexec, ?_⟩
  have hlen := h.ready.inv.chip_lt hk'
  refine (State.chip_ite_setLineClk _ _ _ _ _).trans ((State.chip_setChip_self v _ hlen).trans ?_)
  rw [h.lastRead, decide_eq_true rfl, Bool.and_true, h.cfg]

end

/-! ### The statements -/

/-- Settles O40: the flag read at the opened state is `clearFlags_eq`, its byte `Chip.icrByte_eq`. -/
theorem icrReadClears : Obligations.IcrReadClears := by
  unfold Obligations.IcrReadClears
  intro s k hready hk
  obtain ⟨t, h⟩ := opened_of_ready hready hk
  refine ⟨t, h.accessed, ?_⟩
  have htracked := h.ready.inv.tracked (h.nchip_lt hk)
  rw [h.opens.exec_chipReadIcr, clearFlags_eq htracked.chip_lt htracked.src_lt, Chip.icrByte_eq, ← h.clk]
  rfl

/-- Settles O41: the mask write replaces the chip and updates its line (`updateLine_setChip_eq_ite`). -/
theorem icrWriteMasks : Obligations.IcrWriteMasks := by
  unfold Obligations.IcrWriteMasks
  intro s k v hready hk
  obtain ⟨t, h⟩ := opened_of_ready hready hk
  refine ⟨t, h.accessed, ?_⟩
  have hline : t.lineOf k = s.lineOf k := by rw [State.lineOf, h.cfg, State.lineOf]
  have hexec : exec (.chipWriteIcr k v) s = .next ((writeMask k v t).answer .nothing) :=
    h.opens.perform_writeChip (writeMask k v)
  rw [hexec, writeMask, updateLine_setChip_eq_ite (h.chip_lt hk), hline, h.clk]
  rfl

/-- Settles O43: the pulse opens in the state the read leaves (`FlagsRead.exec_extPulse`), whose flags are all 0. -/
theorem readWinsOverPulse : Obligations.ReadWinsOverPulse := by
  unfold Obligations.ReadWinsOverPulse
  intro s t k hready hk hread
  obtain ⟨v, hopened⟩ := opened_of_ready hready hk
  rw [hopened.opens.exec_chipReadIcr] at hread
  cases hread
  have h := hopened.flagsRead hk (.byte (v.chip k).icrByte)
  obtain ⟨u, hexec, hchip⟩ := h.exec_extPulse hk
  refine ⟨u, hexec, fun hwins => ?_, fun hloses i => ?_, ?_⟩
  · rw [hchip, hwins, Chip.pulsed, h.flags, byte_zero_or]
    rfl
  · rw [hchip, hloses, Chip.pulsed, h.flags, byte_zero_or]
    exact Chip.getLsbD_pulseFlags _ _ i
  · rw [hchip]
    rfl

end Sys2Proof.Machine
end

section
/-! The transfer of the shift register through a reconciliation (44_chip_icr_sdr_ports.md R217, R218; 43_chip_timers.md
R163, R164): the underflows of channel A clock it while shifting is enabled, and nothing else touches it. -/

namespace Sys2Proof.Machine

/-- `n` underflows of channel A complete the transfer: they bring the countdown to 0, or to `SR_EARLY`, from above
(44_chip_icr_sdr_ports.md R218). -/
abbrev Chip.Completes (c : Chip) (early : Option Nat) (n : Nat) : Prop :=
  early.getD 0 < c.srBits.toNat ∧ c.srBits.toNat - n ≤ early.getD 0

/-- The countdown and the completion flag are the same in `d` as in `c`. -/
structure Chip.SameTransfer (c d : Chip) : Prop where
  srBits : d.srBits = c.srBits
  flag : d.flags.getLsbD 3 = c.flags.getLsbD 3

section
variable {won : Bool} {early : Option Nat} {mode : ChanState} {x : Channel} {n : Nat} {c d e : Chip}

/-! ### What leaves the transfer alone -/

theorem Chip.SameTransfer.refl (c : Chip) : c.SameTransfer c := ⟨rfl, rfl⟩

theorem Chip.SameTransfer.trans (h : c.SameTransfer d) (g : d.SameTransfer e) : c.SameTransfer e :=
  ⟨g.srBits.trans h.srBits, g.flag.trans h.flag⟩

/-- The flags of the channels are not the completion flag (10_state.md R39). -/
theorem getLsbD_or_flagOf (f : Byte) (x : Channel) : (f ||| flagOf x).getLsbD 3 = f.getLsbD 3 := by
  have hflag : (flagOf x).getLsbD 3 = false := by cases x <;> rfl
  rw [BitVec.getLsbD_or, hflag, Bool.or_false]

theorem Chip.sameTransfer_flagged (c : Chip) : c.SameTransfer (c.flagged won (flagOf x)) := by
  refine ⟨rfl, ?_⟩
  cases won with
  | true => exact congrArg (·.getLsbD 3) (byte_or_zero c.flags)
  | false => exact getLsbD_or_flagOf c.flags x

theorem Chip.sameTransfer_taken (c : Chip) (cycle : Cycle) : c.SameTransfer (c.taken x cycle) :=
  ⟨by rw [Chip.taken, Chip.setChan_srBits, Chip.setCtl_srBits], by rw [Chip.taken, Chip.setChan_flags, Chip.setCtl_flags]⟩

theorem Chip.sameTransfer_countB (c : Chip) : c.SameTransfer (c.countB won mode) := by
  by_cases hmode : c.chanState .B = mode
  case neg =>
    rw [Chip.countB, if_neg hmode]
    exact Chip.SameTransfer.refl c
  case pos =>
    rw [Chip.countB_of_state hmode]
    by_cases hle : (c.chan .B).cnt.toNat ≤ 1
    · rw [Chip.countOnce_of_le hle]
      have hreload : c.SameTransfer (c.reload .B) := ⟨rfl, rfl⟩
      exact hreload.trans (Chip.sameTransfer_flagged _)
    · rw [Chip.countOnce_of_gt (Nat.not_le.mp hle)]
      exact ⟨rfl, rfl⟩

theorem Chip.sameTransfer_countB_iterate (n : Nat) (c : Chip) : c.SameTransfer ((Chip.countB won mode)^[n] c) := by
  induction n generalizing c with
  | zero => exact Chip.SameTransfer.refl c
  | succ n ih =>
    rw [Function.iterate_succ_apply]
    exact c.sameTransfer_countB.trans (ih _)

/-! ### The underflows of channel A -/

theorem Chip.sameTransfer_afterUnderflows (hcra : c.cra.getLsbD 6 = false) :
    c.SameTransfer (c.afterUnderflows won early .A n) := by
  have hnot : ¬(c.flagged won (flagOf .A)).Shifting := fun hshift => nomatch hcra.symm.trans hshift.1
  rw [Chip.afterUnderflows, Chip.clocked_iterate_of_not_shifting hnot]
  exact c.sameTransfer_flagged.trans (Chip.sameTransfer_countB_iterate n _)

/-- Clocked `n` times, the register counts `n` half-bits down, and is complete or not (44_chip_icr_sdr_ports.md R218). -/
theorem Chip.clocked_iterate_transfer (hcra : c.cra.getLsbD 6 = true) :
    ((Chip.clocked false early)^[n] c).srBits.toNat = c.srBits.toNat - n ∧
      (((Chip.clocked false early)^[n] c).flags.getLsbD 3 = true ↔ c.flags.getLsbD 3 = true ∨ c.Completes early n) := by
  by_cases hold : c.srBits.toNat = 0
  case pos =>
    rw [Chip.clocked_iterate_of_not_shifting fun hshift => hshift.2 hold, Chip.Completes, hold]
    simp
  case neg =>
    have hlt := c.srBits.isLt
    have hmin : c.srBits.toNat - min n c.srBits.toNat = c.srBits.toNat - n := by omega
    rw [Chip.clocked_iterate ⟨hcra, hold⟩]
    dsimp only
    rw [hmin, BitVec.toNat_ofNat, Nat.mod_eq_of_lt (by omega), BitVec.getLsbD_or, Bool.or_eq_true]
    refine ⟨rfl, or_congr_right ?_⟩
    by_cases hdone : c.Completes early n
    · rw [if_pos hdone]
      exact iff_of_true rfl hdone
    · rw [if_neg hdone]
      exact iff_of_false (by decide) hdone

theorem Chip.afterUnderflows_transfer (hcra : c.cra.getLsbD 6 = true) :
    (c.afterUnderflows false early .A n).srBits.toNat = c.srBits.toNat - n ∧
      ((c.afterUnderflows false early .A n).flags.getLsbD 3 = true ↔
        c.flags.getLsbD 3 = true ∨ c.Completes early n) := by
  have hflag : c.SameTransfer (c.flagged false (flagOf .A)) := c.sameTransfer_flagged
  have hcount := Chip.sameTransfer_countB_iterate (won := false) (mode := .runningCascade) n
    ((Chip.clocked false early)^[n] (c.flagged false (flagOf .A)))
  obtain ⟨hbits, hdone⟩ := Chip.clocked_iterate_transfer (early := early) (n := n)
    (c := c.flagged false (flagOf .A)) hcra
  rw [Chip.Completes, hflag.srBits, hflag.flag] at hdone
  rw [hflag.srBits] at hbits
  exact ⟨(congrArg BitVec.toNat hcount.srBits).trans hbits, by rw [← hdone]; exact Eq.congr hcount.flag rfl⟩

end

/-! ### The parts of a reconciliation -/

section
variable {k n e0 P : Nat} {c e : Cycle} {s t u : State}

theorem Chip.taken_cra (chip : Chip) (c : Cycle) : (chip.taken .A c).cra.getLsbD 6 = chip.cra.getLsbD 6 :=
  Chip.ctlAfter_getLsbD (by decide)

theorem chips_length_takeUnderflows (k : Nat) (x : Channel) (c : Cycle) (s : State) :
    (takeUnderflows k x c s).chips.length = s.chips.length := by
  simp [takeUnderflows, State.setChan, chips_length_stopOneShot]

/-- The chip of a channel that has taken its underflows and set its flag, unless a read has won (43_chip_timers.md R163,
R164). -/
theorem chip_flagUnderflow (hk : k < s.chips.length) (x : Channel) (c : Cycle) :
    ∃ won, (flagUnderflow k x c s).chip k = ((s.chip k).taken x c).flagged won (flagOf x) := by
  have htaken : (takeUnderflows k x c s).chip k = (s.chip k).taken x c := chip_takeUnderflows hk
  rw [← htaken]
  exact ⟨_, chip_setFlag (by rwa [chips_length_takeUnderflows]) rfl⟩

theorem sameTransfer_flagUnderflow (hk : k < s.chips.length) (x : Channel) (c : Cycle) :
    (s.chip k).SameTransfer ((flagUnderflow k x c s).chip k) := by
  obtain ⟨won, hchip⟩ := chip_flagUnderflow hk x c
  rw [hchip]
  exact (Chip.sameTransfer_taken _ c).trans (Chip.sameTransfer_flagged _)

theorem cra_flagUnderflow (hk : k < s.chips.length) (c : Cycle) :
    ((flagUnderflow k .A c s).chip k).cra.getLsbD 6 = (s.chip k).cra.getLsbD 6 := by
  obtain ⟨won, hchip⟩ := chip_flagUnderflow hk .A c
  rw [hchip]
  exact Chip.taken_cra _ c

theorem catchUpEffects_B (k : Nat) (c : Cycle) (s : State) : catchUpEffects k .B c s = flagUnderflow k .B c s := by
  have hcycle : BitVec.ofNat 32 ((s.chip k).chan .B).u.toNat = ((s.chip k).chan .B).u := by simp
  rw [catchUpEffects, underflowEffects, underflowEffectsB, hcycle]
  rfl

theorem catchUpEffects_A (k : Nat) (c : Cycle) (s : State) :
    catchUpEffects k .A c s =
      cascade k ((s.chip k).underflowsTo .A c) (s.chip k).chanA.u.toNat ((s.chip k).period .A)
        (clockShift k ((s.chip k).underflowsTo .A c) (s.chip k).chanA.u.toNat ((s.chip k).period .A)
          (flagUnderflow k .A c s)) := by
  have hcycle : BitVec.ofNat 32 ((s.chip k).chan .A).u.toNat = ((s.chip k).chan .A).u := by simp
  rw [catchUpEffects, underflowEffects, underflowEffectsA, hcycle]
  rfl

/-- Channel B clocks no register: its underflows set its own flag alone (43_chip_timers.md R164). -/
theorem sameTransfer_chanCatchUp_B (hk : k < s.chips.length) (h : chanCatchUp k .B c s = .ok t) :
    (s.chip k).SameTransfer (t.chip k) := by
  rcases chanCatchUp_cases h with ⟨-, rfl⟩ | ⟨-, -, rfl⟩
  · exact Chip.SameTransfer.refl _
  · rw [catchUpEffects_B]
    exact sameTransfer_flagUnderflow hk .B c

theorem sameTransfer_storeLive (hk : k < s.chips.length) : (s.chip k).SameTransfer ((storeLive k c s).chip k) := by
  unfold storeLive
  rw [State.chip_setChip_self s _ hk]
  exact ⟨rfl, rfl⟩

/-- What follows the catch-up of channel A in a reconciliation leaves the transfer alone (43_chip_timers.md R166). -/
theorem updateTo_transfer (hk : k < s.chips.length) (h : updateTo k c s = .ok t) :
    ∃ s₁, chanCatchUp k .A c s = .ok s₁ ∧ (s₁.chip k).SameTransfer (t.chip k) ∧ Reconciling k c.toNat 0 s₁ t := by
  obtain ⟨-, s₁, s₂, hA, hB, rfl⟩ := updateTo_eq_ok.mp h
  have hk₁ : k < s₁.chips.length := by rwa [(OnlyChip.chanCatchUp hA).chips_length]
  have hk₂ : k < s₂.chips.length := by rwa [(OnlyChip.chanCatchUp hB).chips_length]
  exact ⟨s₁, hA, (sameTransfer_chanCatchUp_B hk₁ hB).trans (sameTransfer_storeLive hk₂),
    ((Reconciling.chanCatchUp hB).spare BitVec.and_zero).trans (Reconciling.storeLive c)⟩

/-! ### What a reconciliation does to the transfer -/

/-- Each underflow of a due channel A counts one half-bit down while shifting is enabled (44_chip_icr_sdr_ports.md
R218). -/
theorem updateTo_clocked (hk : k < s.chips.length) (hread : (s.chip k).ReadBefore)
    (hdue : (s.chip k).UnderflowDue .A c) (hcra : (s.chip k).cra.getLsbD 6 = true) (h : updateTo k c s = .ok t) :
    (t.chip k).srBits.toNat = (s.chip k).srBits.toNat - (s.chip k).underflowsTo .A c ∧
      ((t.chip k).flags.getLsbD 3 = true ↔
        (s.chip k).flags.getLsbD 3 = true ∨ (s.chip k).Completes s.cfg.srEarly ((s.chip k).underflowsTo .A c)) := by
  obtain ⟨s₁, hA, hsame, -⟩ := updateTo_transfer hk h
  rcases chanCatchUp_cases hA with ⟨hnot, -⟩ | ⟨-, hfits, rfl⟩
  case inl => exact absurd hdue hnot
  rw [hsame.srBits, hsame.flag, chip_catchUpEffects hk hdue hfits (hread .A hdue.1)]
  exact Chip.afterUnderflows_transfer ((Chip.taken_cra _ c).trans hcra)

/-- Without an underflow of channel A, or with shifting disabled, nothing clocks the register (44_chip_icr_sdr_ports.md
R218). -/
theorem updateTo_not_clocked (hk : k < s.chips.length) (hread : (s.chip k).ReadBefore)
    (hnot : ¬((s.chip k).UnderflowDue .A c ∧ (s.chip k).cra.getLsbD 6 = true)) (h : updateTo k c s = .ok t) :
    (s.chip k).SameTransfer (t.chip k) := by
  obtain ⟨s₁, hA, hsame, -⟩ := updateTo_transfer hk h
  refine Chip.SameTransfer.trans ?_ hsame
  rcases chanCatchUp_cases hA with ⟨-, rfl⟩ | ⟨hdue, hfits, rfl⟩
  · exact Chip.SameTransfer.refl _
  · have hcra : (s.chip k).cra.getLsbD 6 = false := Bool.eq_false_iff.mpr fun hcra => hnot ⟨hdue, hcra⟩
    rw [chip_catchUpEffects hk hdue hfits (hread .A hdue.1)]
    exact (Chip.sameTransfer_taken _ c).trans (Chip.sameTransfer_afterUnderflows ((Chip.taken_cra _ c).trans hcra))

/-! ### The line at the end of a transfer -/

/-- With the completion flag alone enabled the summary is that flag (44_chip_icr_sdr_ports.md R215). -/
theorem Chip.summary_of_mask_sdr {chip : Chip} (hmask : chip.mask = flagSdr) :
    chip.summary = decide (chip.flags &&& flagSdr ≠ 0) := by
  rw [Chip.summary, hmask, BitVec.and_assoc]
  rfl

/-- With the completion flag alone enabled, a line that is low is stamped when that flag is set, and by nothing before or
after it (44_chip_icr_sdr_ports.md R210, R214; 42_interrupt_aggregator.md R143). -/
theorem lineClk_of_transfer_end (ht : Tracked k s) (hsource : k < s.cfg.nSources) (hmask : (s.chip k).mask = flagSdr)
    (hlow : s.level (s.lineOf k) = false) (hbefore : Reconciling k c.toNat flagSdr s u)
    (hread : readWon k e u = false) (hafter : Reconciling k c.toNat 0 (setFlag k flagSdr e u) t) :
    t.lineClk (s.lineOf k) = e := by
  have htu := hbefore.tracked ht
  have hmasku : (u.chip k).mask = flagSdr := hbefore.kept.mask.trans hmask
  have hsum : (u.chip k).summary = (s.chip k).summary := by
    rw [Chip.summary_of_mask_sdr hmask, Chip.summary_of_mask_sdr hmasku, hbefore.flags_spared]
  have hsources (n : Nat) : u.source n = s.source n := by
    by_cases hn : n = k
    · rw [hn, htu.source_eq, hsum, ht.source_eq]
    · exact hbefore.only.source n hn
  have hlowu : u.level (s.lineOf k) = false := by rwa [State.level_congr hbefore.only.cfg hsources]
  have hchip := chip_setFlag_of_not_readWon (bit := flagSdr) htu.chip_lt hread
  have hhigh : ((setFlag k flagSdr e u).chip k).summary = true := by
    rw [hchip, Chip.summary_of_mask_sdr (by exact hmasku), or_and_eq_self]
    decide
  have hstamp : (setFlag k flagSdr e u).lineClk (s.lineOf k) = e := by
    have hline : u.lineOf k = s.lineOf k := by rw [State.lineOf, hbefore.only.cfg, State.lineOf]
    rw [hchip] at hhigh
    rw [setFlag_of_not_readWon hread, ← hline]
    refine lineClk_updateLine_of_rise (s := u.setChip k _) ?_ htu.src_lt ?_ ?_
    · rw [State.setChip_cfg, hbefore.only.cfg]
      exact hsource
    · rw [State.chip_setChip_self u _ htu.chip_lt]
      exact hhigh
    · exact hline ▸ hlowu
  rw [hafter.stamp_eq (tracked_setFlag htu) (hhigh.symm ▸ hafter.summary_mono hhigh), hstamp]

/-- Underflows that complete the transfer count it down and set the flag at the one that does so
(44_chip_icr_sdr_ports.md R218). -/
theorem clockShift_of_completes (hcra : (s.chip k).cra.getLsbD 6 = true)
    (hdone : (s.chip k).Completes s.cfg.srEarly n) :
    clockShift k n e0 P s =
      setFlag k flagSdr (BitVec.ofNat 32 (e0 + ((s.chip k).srBits.toNat - s.cfg.srEarly.getD 0 - 1) * P))
        (s.setChip k { s.chip k with
          srBits := BitVec.ofNat 5 ((s.chip k).srBits.toNat - min n (s.chip k).srBits.toNat) }) := by
  obtain ⟨hlast, hbelow⟩ := hdone
  rw [clockShift, if_pos hcra, shiftEvents_of_pos (by omega)]
  exact if_pos ⟨hlast, by omega⟩

/-- The effects of underflows that complete the transfer: work that spares the completion flag, that flag at the
underflow that completes it, the cascade into channel B (43_chip_timers.md R164; 44_chip_icr_sdr_ports.md R218). -/
theorem catchUpEffects_of_completes (hk : k < s.chips.length) (hdue : (s.chip k).UnderflowDue .A c)
    (hfits : (s.chip k).oneShot .A = true ∨ (s.chip k).rescheduled .A c < neverNat)
    (hcra : (s.chip k).cra.getLsbD 6 = true)
    (hdone : (s.chip k).Completes s.cfg.srEarly ((s.chip k).underflowsTo .A c)) :
    ∃ u, Reconciling k c.toNat flagSdr s u ∧ catchUpEffects k .A c s =
      cascade k ((s.chip k).underflowsTo .A c) (s.chip k).chanA.u.toNat ((s.chip k).period .A)
        (setFlag k flagSdr (BitVec.ofNat 32 ((s.chip k).chanA.u.toNat +
          ((s.chip k).srBits.toNat - s.cfg.srEarly.getD 0 - 1) * (s.chip k).period .A)) u) := by
  have htake : Reconciling k c.toNat flagSdr s (takeUnderflows k .A c s) := Reconciling.takeUnderflows hfits
  have hflag : Reconciling k c.toNat flagSdr s (flagUnderflow k .A c s) :=
    htake.trans (FlagWork.setFlag rfl hdue.2).toReconciling
  have hbits := (sameTransfer_flagUnderflow hk .A c).srBits
  have hcompletes : ((flagUnderflow k .A c s).chip k).Completes (flagUnderflow k .A c s).cfg.srEarly
      ((s.chip k).underflowsTo .A c) := by
    rw [Chip.Completes, hbits, hflag.only.cfg]
    exact hdone
  rw [catchUpEffects_A, clockShift_of_completes ((cra_flagUnderflow hk c).trans hcra) hcompletes, hbits, hflag.only.cfg]
  refine ⟨_, hflag.trans (FlagWork.setSrBits ?_).toReconciling, rfl⟩
  rw [hbits, BitVec.toNat_ofNat]
  exact Nat.le_trans (Nat.mod_le _ _) (Nat.sub_le _ _)

/-- A line that the completion flag alone can raise is stamped with the underflow that completes the transfer
(44_chip_icr_sdr_ports.md R214, R218). -/
theorem updateTo_transfer_stamp (ht : Tracked k s) (hsource : k < s.cfg.nSources) (hread : (s.chip k).ReadBefore)
    (hdue : (s.chip k).UnderflowDue .A c) (hcra : (s.chip k).cra.getLsbD 6 = true)
    (hdone : (s.chip k).Completes s.cfg.srEarly ((s.chip k).underflowsTo .A c)) (hmask : (s.chip k).mask = flagSdr)
    (hlow : s.level (s.lineOf k) = false) (h : updateTo k c s = .ok t) :
    t.lineClk (s.lineOf k) = BitVec.ofNat 32 ((s.chip k).chanA.u.toNat +
      ((s.chip k).srBits.toNat - s.cfg.srEarly.getD 0 - 1) * (s.chip k).period .A) := by
  obtain ⟨s₁, hA, -, hrest⟩ := updateTo_transfer ht.chip_lt h
  rcases chanCatchUp_cases hA with ⟨hnot, -⟩ | ⟨-, hfits, rfl⟩
  case inl => exact absurd hdue hnot
  obtain ⟨u, hbefore, heffects⟩ := catchUpEffects_of_completes ht.chip_lt hdue hfits hcra hdone
  have hcascade (s : State) : CascadeWork k c.toNat 0 s (cascade k _ _ _ s) :=
    CascadeWork.cascade BitVec.and_zero (Chip.lastUnderflow_le hdue)
  rw [heffects] at hrest
  refine lineClk_of_transfer_end ht hsource hmask hlow hbefore ?_ ((hcascade _).toReconciling.trans hrest)
  have htaken : (s.chip k).srBits.toNat - s.cfg.srEarly.getD 0 - 1 < (s.chip k).underflowsTo .A c := by
    obtain ⟨habove, hbelow⟩ := hdone
    omega
  refine readWon_of_lastRead_lt ?_ (Chip.underflow_lt hdue htaken)
  rw [hbefore.kept.lastRead]
  exact hread .A hdue.1

end

/-- Settles O42: the write is `writeSdr` at the opened state; a reconciliation clocks the register by `updateTo_clocked`
and `updateTo_transfer_stamp`, and otherwise leaves it alone by `updateTo_not_clocked`. -/
theorem sdrWriteStartsTransfer : Obligations.SdrWriteStartsTransfer := by
  unfold Obligations.SdrWriteStartsTransfer
  refine ⟨fun s k v hready hk => ?_, fun s k c hinv hk hrc hroom => ?_⟩
  case refine_1 =>
    obtain ⟨t, h⟩ := opened_of_ready hready hk
    exact ⟨t, h.accessed, h.opens.perform_writeChip (writeSdr k v)⟩
  case refine_2 =>
    obtain ⟨t, h⟩ := updateTo_total hrc (by omega)
    have hlen := hinv.chip_lt hk
    have hchip := hinv.chip k hk
    have hread := readBefore_of_inv hchip.lastRead_le hchip.chan
    refine ⟨t, h, (Reconciling.updateTo h).kept.sdr, ?_, ?_⟩
    · rintro ⟨hrun, hu, hcra⟩
      obtain ⟨hbits, hflag⟩ := updateTo_clocked hlen hread ⟨hrun, hu⟩ hcra h
      exact ⟨hbits, hflag, fun hdone hmask hlow => updateTo_transfer_stamp (hinv.tracked hk) (hinv.source_lt hk) hread
        ⟨hrun, hu⟩ hcra hdone hmask hlow h⟩
    · intro hnot
      have hsame := updateTo_not_clocked hlen hread (fun hclocked =>
        hnot ⟨hclocked.1.1, hclocked.1.2, hclocked.2⟩) h
      exact ⟨hsame.srBits, hsame.flag⟩

end Sys2Proof.Machine
end

section
/-! The time-of-day registers (45_chip_tod.md R245 to R253): a read goes through the copy that is held and holds or
releases it, a write stores a masked byte in the clock or in the compare register. -/

namespace Sys2Proof.Machine

section
variable {k : Nat} {s t : State}

/-! ### Reads -/

/-- A TOD read answers its byte of the view and changes the held copy alone (45_chip_tod.md R245). -/
theorem OpensTo.perform_readTod (h : OpensTo k s t) (i : TodField) :
    perform s (readTod k i) = .next ((todRead k i t).answer (.byte (todReadByte k i t))) :=
  h.perform_accessChip fun s => .ok (todRead k i s, .byte (todReadByte k i s))

/-! ### Writes -/

/-- With `crb[7]` set the byte goes to the compare register (45_chip_tod.md R245). -/
theorem todWrite_compare (hcrb : (s.chip k).crb.getLsbD 7 = true) (i : TodField) (v : Byte) :
    todWrite k i v s = s.setChip k { s.chip k with todAlarm := (s.chip k).todAlarm.set i (v &&& todMask i) } :=
  if_pos hcrb

/-- With `crb[7]` clear the byte goes to the clock; hours freezes it, tenths thaws it (45_chip_tod.md R245). -/
theorem todWrite_clock (hcrb : (s.chip k).crb.getLsbD 7 = false) (i : TodField) (v : Byte) :
    todWrite k i v s = s.setChip k { s.chip k with
      tod := (s.chip k).tod.set i (v &&& todMask i)
      todStopped := decide (i = .hours) || (!decide (i = .tenths) && (s.chip k).todStopped) } := by
  unfold todWrite
  dsimp only
  rw [if_neg (Bool.eq_false_iff.mp hcrb)]
  cases i <;> rfl

theorem OpensTo.perform_todWrite_compare (h : OpensTo k s t) (hcrb : (t.chip k).crb.getLsbD 7 = true) (i : TodField)
    (v : Byte) :
    perform s (writeChip k (todWrite k i v)) = .next ((t.setChip k
      { t.chip k with todAlarm := (t.chip k).todAlarm.set i (v &&& todMask i) }).answer .nothing) := by
  rw [h.perform_writeChip, todWrite_compare hcrb]

theorem OpensTo.perform_todWrite_clock (h : OpensTo k s t) (hcrb : (t.chip k).crb.getLsbD 7 = false) (i : TodField)
    (v : Byte) :
    perform s (writeChip k (todWrite k i v)) = .next ((t.setChip k { t.chip k with
      tod := (t.chip k).tod.set i (v &&& todMask i)
      todStopped := decide (i = .hours) || (!decide (i = .tenths) && (t.chip k).todStopped) }).answer .nothing) := by
  rw [h.perform_writeChip, todWrite_clock hcrb]

end

/-! ### The statements -/

/-- Settles O54: each of the reads is `TodRead` at the opened state, tenths alone releasing the copy. -/
theorem todReadsLatch : Obligations.TodReadsLatch := by
  unfold Obligations.TodReadsLatch
  intro s k hready hk
  obtain ⟨t, h⟩ := opened_of_ready hready hk
  exact ⟨t, h.accessed, h.opens.perform_readTod .tenths, h.opens.perform_readTod .seconds,
    h.opens.perform_readTod .minutes, h.opens.perform_readTod .hours⟩

/-- Settles O55: each of the writes is `TodWrite` at the opened state, by where `crb[7]` sends the byte. -/
theorem todWritesStore : Obligations.TodWritesStore := by
  unfold Obligations.TodWritesStore
  intro s k v hready hk
  obtain ⟨t, h⟩ := opened_of_ready hready hk
  refine ⟨t, h.accessed, fun hcrb => ?_, fun hcrb => ?_⟩
  · have hwrite (i : TodField) := h.opens.perform_todWrite_compare hcrb i v
    exact ⟨hwrite .tenths, hwrite .seconds, hwrite .minutes, hwrite .hours⟩
  · have hwrite (i : TodField) := h.opens.perform_todWrite_clock hcrb i v
    exact ⟨hwrite .tenths, hwrite .seconds, hwrite .minutes, hwrite .hours⟩

end Sys2Proof.Machine
end

section
/-! One tick of the time of day as a number (45_chip_tod.md R240, R241): a byte at a time by its carry, and the whole
group as the next tenth of a second. -/

namespace Sys2Proof.Machine

section
variable {b h : Byte} {d : Tod}

/-! ### Bytes -/

theorem bcdValue_lt_sixty (hb : Bcd60 b) : bcdValue b < 60 := by
  revert b
  decide

/-- The next BCD byte modulo sixty, which carries at 59 (45_chip_tod.md R241). -/
theorem inc60_bcd (hb : Bcd60 b) :
    Bcd60 (inc60 b).1 ∧ bcdValue (inc60 b).1 = (bcdValue b + 1) % 60 ∧ ((inc60 b).2 = true ↔ bcdValue b = 59) := by
  revert b
  decide

theorem hourOfDay_lt (hh : HoursValid h) : hourOfDay h < 24 := by
  revert h
  decide

/-- The next hour of the day, hour 00 among them (45_chip_tod.md R241, R255). -/
theorem incHours_valid (hh : HoursValid h) :
    HoursValid (incHours h) ∧ hourOfDay (incHours h) = (hourOfDay h + 1) % 24 := by
  revert h
  decide

/-- The next tenth, which is 10 exactly at 9 (45_chip_tod.md R241). -/
theorem toNat_incTenths (hb : b.toNat ≤ 9) : ((b + 1) &&& 0x0F).toNat = b.toNat + 1 := by
  revert b
  decide

/-! ### The group -/

/-- One tick is the next tenth of a second of the day, and keeps the group valid (45_chip_tod.md R240, R241). -/
theorem todInc_valid (hd : d.Valid) :
    (todInc d).Valid ∧ (todInc d).sinceMidnight = (d.sinceMidnight + 1) % 864000 := by
  obtain ⟨htenths, hsec, hmin, hhr⟩ := hd
  have hnext := toNat_incTenths htenths
  obtain ⟨hsec', hsecValue, hsecCarry⟩ := inc60_bcd hsec
  obtain ⟨hmin', hminValue, hminCarry⟩ := inc60_bcd hmin
  obtain ⟨hhr', hhrValue⟩ := incHours_valid hhr
  have hsecLt := bcdValue_lt_sixty hsec
  have hminLt := bcdValue_lt_sixty hmin
  have hhrLt := hourOfDay_lt hhr
  have hzero : (0 : Byte).toNat = 0 := rfl
  have hdigit : (0 : Byte).toNat ≤ 9 := Nat.zero_le _
  unfold todInc
  dsimp only
  split
  case isTrue hten =>
    have hne : d.tenths.toNat + 1 ≠ 10 := fun h => hten (BitVec.eq_of_toNat_eq (hnext.trans h))
    have htenths' : ((d.tenths + 1) &&& 0x0F).toNat ≤ 9 := by omega
    refine ⟨⟨htenths', hsec, hmin, hhr⟩, ?_⟩
    simp only [Tod.sinceMidnight, hnext]
    omega
  case isFalse hten =>
    have hnine : d.tenths.toNat + 1 = 10 := by rw [← hnext, not_not.mp hten]; rfl
    split
    case isTrue hcarry =>
      rw [Bool.not_eq_true', ← Bool.not_eq_true, hsecCarry] at hcarry
      refine ⟨⟨hdigit, hsec', hmin, hhr⟩, ?_⟩
      simp only [Tod.sinceMidnight, hsecValue, hzero]
      omega
    case isFalse hcarry =>
      rw [Bool.not_eq_true', Bool.not_eq_false, hsecCarry] at hcarry
      split
      case isTrue hcarryMin =>
        rw [Bool.not_eq_true', ← Bool.not_eq_true, hminCarry] at hcarryMin
        refine ⟨⟨hdigit, hsec', hmin', hhr⟩, ?_⟩
        simp only [Tod.sinceMidnight, hsecValue, hminValue, hzero]
        omega
      case isFalse hcarryMin =>
        rw [Bool.not_eq_true', Bool.not_eq_false, hminCarry] at hcarryMin
        refine ⟨⟨hdigit, hsec', hmin', hhr'⟩, ?_⟩
        simp only [Tod.sinceMidnight, hsecValue, hminValue, hhrValue, hzero]
        omega

end

end Sys2Proof.Machine
end

section
/-! The callback of the tick alarm (45_chip_tod.md R243, R244; 44_chip_icr_sdr_ports.md R210, R214): what the clock's part
of a tick makes of the state, by whether the clock is frozen, the compare meets and a read has won. -/

namespace Sys2Proof.Machine

/-- A read of the flags at cycle `T` suppresses a flag that is set there (44_chip_icr_sdr_ports.md R210). -/
abbrev State.ReadWins (s : State) (k : Nat) (T : Cycle) : Prop :=
  s.cfg.readWins.getD k false = true ∧ (s.chip k).lastRead = some T

section
variable {k : Nat} {T : Cycle} {s : State}

theorem todAdvance_frozen (hstop : (s.chip k).todStopped = true) : todAdvance k T s = s := if_pos hstop

theorem chip_tickClock (hk : k < s.chips.length) :
    (tickClock k s).chip k = { s.chip k with tod := todInc (s.chip k).tod } := State.chip_setChip_self s _ hk

/-- The compare is made with the incremented clock (45_chip_tod.md R243). -/
theorem todAdvance_running (hk : k < s.chips.length) (hrun : (s.chip k).todStopped = false) :
    todAdvance k T s =
      if todInc (s.chip k).tod = (s.chip k).todAlarm then setFlag k flagAlarm T (tickClock k s) else tickClock k s := by
  have hadvance : todAdvance k T s =
      if ((tickClock k s).chip k).tod = ((tickClock k s).chip k).todAlarm then setFlag k flagAlarm T (tickClock k s)
      else tickClock k s := if_neg (Bool.eq_false_iff.mp hrun)
  rw [hadvance, chip_tickClock hk]

/-- Whether a read wins is not the clock's to change (44_chip_icr_sdr_ports.md R210). -/
theorem readWon_tickClock (hk : k < s.chips.length) : readWon k T (tickClock k s) = readWon k T s :=
  readWon_congr (s := s) (t := tickClock k s) rfl (by rw [chip_tickClock hk]) T

theorem readWon_eq_true : readWon k T s = true ↔ s.ReadWins k T := by
  rw [readWon, Bool.and_eq_true, decide_eq_true_eq]

/-- A tick whose compare does not meet, or whose flag a read has suppressed, counts on (44_chip_icr_sdr_ports.md R210). -/
theorem todAdvance_quiet (hk : k < s.chips.length) (hrun : (s.chip k).todStopped = false)
    (h : todInc (s.chip k).tod ≠ (s.chip k).todAlarm ∨ s.ReadWins k T) : todAdvance k T s = tickClock k s := by
  rw [todAdvance_running hk hrun]
  split
  case isTrue hmeets =>
    have hwon : readWon k T s = true := readWon_eq_true.mpr (h.resolve_left (not_not.mpr hmeets))
    exact setFlag_of_readWon ((readWon_tickClock hk).trans hwon)
  case isFalse => rfl

/-- A tick whose compare meets replaces the chip, its alarm flag set, and updates the line at its own cycle
(45_chip_tod.md R244; 44_chip_icr_sdr_ports.md R214). -/
theorem todAdvance_alarm (hk : k < s.chips.length) (hrun : (s.chip k).todStopped = false)
    (hmeets : todInc (s.chip k).tod = (s.chip k).todAlarm) (hread : ¬s.ReadWins k T) :
    todAdvance k T s = updateLine k T (s.setChip k
      { s.chip k with tod := todInc (s.chip k).tod, flags := (s.chip k).flags ||| flagAlarm }) := by
  have hwon : readWon k T s = false := Bool.eq_false_iff.mpr (mt readWon_eq_true.mp hread)
  rw [todAdvance_running hk hrun, if_pos hmeets, setFlag_of_not_readWon ((readWon_tickClock hk).trans hwon),
    chip_tickClock hk, tickClock, State.setChip_setChip]

/-- The three cases of the clock's part of a tick (45_chip_tod.md R243, R244; 44_chip_icr_sdr_ports.md R210). -/
theorem todAdvance_eq (hk : k < s.chips.length) :
    todAdvance k T s =
      if (s.chip k).todStopped = true then s
      else if todInc (s.chip k).tod ≠ (s.chip k).todAlarm ∨ s.ReadWins k T then tickClock k s
      else updateLine k T (s.setChip k
        { s.chip k with tod := todInc (s.chip k).tod, flags := (s.chip k).flags ||| flagAlarm }) := by
  split
  case isTrue hstop => exact todAdvance_frozen hstop
  case isFalse hstop =>
    have hrun := Bool.eq_false_iff.mpr hstop
    split
    case isTrue hquiet => exact todAdvance_quiet hk hrun hquiet
    case isFalse hquiet =>
      obtain ⟨hmeets, hread⟩ := not_or.mp hquiet
      exact todAdvance_alarm hk hrun (not_not.mp hmeets) hread

/-- The clock after a tick (45_chip_tod.md R243). -/
theorem tod_todAdvance (hk : k < s.chips.length) :
    ((todAdvance k T s).chip k).tod = if (s.chip k).todStopped then (s.chip k).tod else todInc (s.chip k).tod := by
  rw [todAdvance_eq hk]
  split
  case isTrue => rfl
  case isFalse =>
    split
    case isTrue => rw [chip_tickClock hk]
    case isFalse => rw [State.chip_updateLine, State.chip_setChip_self s _ hk]

/-- The alarm flag after a tick (45_chip_tod.md R244; 44_chip_icr_sdr_ports.md R210). -/
theorem flag_todAdvance (hk : k < s.chips.length) :
    ((todAdvance k T s).chip k).flags.getLsbD 2 = true ↔ (s.chip k).flags.getLsbD 2 = true ∨
      ((s.chip k).todStopped = false ∧ todInc (s.chip k).tod = (s.chip k).todAlarm ∧ ¬s.ReadWins k T) := by
  rw [todAdvance_eq hk]
  split
  case isTrue hstop => simp [hstop]
  case isFalse hstop =>
    split
    case isTrue hquiet =>
      rw [chip_tickClock hk]
      exact (or_iff_left fun ⟨_, hmeets, hread⟩ => hquiet.elim (· hmeets) hread).symm
    case isFalse hquiet =>
      obtain ⟨hmeets, hread⟩ := not_or.mp hquiet
      have hbit : ((s.chip k).flags ||| flagAlarm).getLsbD 2 = true := by
        rw [BitVec.getLsbD_or]
        exact Bool.or_true _
      rw [State.chip_updateLine, State.chip_setChip_self s _ hk]
      exact iff_of_true hbit (.inr ⟨Bool.eq_false_iff.mpr hstop, not_not.mp hmeets, hread⟩)

/-- The state after a tick, its alarm armed a period on (45_chip_tod.md R243). -/
theorem todTick_ok (hroom : T.toNat + s.cfg.todPeriod < neverNat) :
    todTick k T s =
      .ok ((todAdvance k T s).setAlarm (todSlot k) ⟨true, BitVec.ofNat 32 (T.toNat + s.cfg.todPeriod)⟩) :=
  todTick_eq_ok.mpr ⟨hroom, rfl⟩

end

end Sys2Proof.Machine
end

section
/-! The ticks of a dispatch (41_alarm_scheduler.md R128, R129, R134; 45_chip_tod.md R243): `TicksTaken` says what the
ticks of a chip so far have come to, every callback keeps it with the same ticks or one more, and at the end every tick
whose cycle has come is taken. -/

namespace Sys2Proof.Machine

/-- The cycle of tick `i` of chip `k`, the one that its alarm is armed for being tick 0 (45_chip_tod.md R243). -/
def State.tickCycle (s : State) (k i : Nat) : Nat := (s.alarm (todSlot k)).target.toNat + i * s.cfg.todPeriod

/-- Tick `i` of chip `k` sets the alarm flag: the clock it leads to is the compare register, and no read has won
(45_chip_tod.md R243; 44_chip_icr_sdr_ports.md R210). -/
def State.TickRaises (s : State) (k i : Nat) : Prop :=
  Nat.repeat todInc (i + 1) (s.chip k).tod = (s.chip k).todAlarm ∧
    ¬s.ReadWins k (BitVec.ofNat 32 (s.tickCycle k i))

/-- From `s` to `m` a dispatch has taken the first `j` ticks of chip `k`, and all of them were due. -/
structure TicksTaken (k j : Nat) (s m : State) : Prop where
  due : ∀ i < j, s.tickCycle k i ≤ s.clk.toNat
  alarm : m.alarm (todSlot k) = ⟨true, BitVec.ofNat 32 (s.tickCycle k j)⟩
  tod : (m.chip k).tod = if (s.chip k).todStopped then (s.chip k).tod else Nat.repeat todInc j (s.chip k).tod
  flag : (m.chip k).flags.getLsbD 2 = true ↔
    (s.chip k).flags.getLsbD 2 = true ∨ ((s.chip k).todStopped = false ∧ ∃ i < j, s.TickRaises k i)

/-- The clock of chip `k`, its alarm flag and its tick alarm are the same in `m'` as in `m`. -/
structure SameTicking (k : Nat) (m m' : State) : Prop where
  alarm : m'.alarm (todSlot k) = m.alarm (todSlot k)
  tod : (m'.chip k).tod = (m.chip k).tod
  flag : (m'.chip k).flags.getLsbD 2 = (m.chip k).flags.getLsbD 2

section
variable {a j k n : Nat} {s m m' : State}

/-! ### Callbacks that are no tick of the chip -/

theorem TicksTaken.of_sameTicking (h : TicksTaken k j s m) (hsame : SameTicking k m m') : TicksTaken k j s m' where
  due := h.due
  alarm := hsame.alarm.trans h.alarm
  tod := hsame.tod.trans h.tod
  flag := by rw [hsame.flag]; exact h.flag

/-- Work on another chip is none on this one's clock (20_memory.md R73). -/
theorem OnlyChip.sameTicking {i : Nat} (h : OnlyChip i m m') (hi : k ≠ i) : SameTicking k m m' :=
  ⟨(h.alarm_of_ne hi).2, by rw [h.chip k hi], by rw [h.chip k hi]⟩

/-- A reconciliation does not touch the clock or the alarm flag (20_memory.md R67). -/
theorem Reconciling.sameTicking {c : Nat} (h : Reconciling k c 0xF4 m m') : SameTicking k m m' := by
  refine ⟨h.alarm_tod, h.tod, ?_⟩
  have hbit := congrArg (·.getLsbD 2) h.flags_spared
  simpa only [BitVec.getLsbD_and, show (0xF4 : Byte).getLsbD 2 = true from rfl, Bool.and_true] using hbit

/-- An external slot is no chip's (10_state.md R25). -/
theorem sameTicking_fire_external (e : Event) (hk : k < m.cfg.nchip) (ha : 3 * m.cfg.nchip ≤ a) :
    SameTicking k m (emit e (alarmUnset a m)) := by
  refine ⟨alarm_fired_ne e ?_, rfl, rfl⟩
  unfold todSlot
  omega

/-! ### A tick of the chip -/

theorem State.tickCycle_succ (s : State) (k j : Nat) : s.tickCycle k (j + 1) = s.tickCycle k j + s.cfg.todPeriod := by
  rw [State.tickCycle, State.tickCycle, Nat.succ_mul, Nat.add_assoc]

/-- The cycle of the tick that comes next fits a register (40_counter_guard.md R104). -/
theorem TicksTaken.toNat_next (h : TicksTaken k j s m) (hready : s.Ready) :
    (BitVec.ofNat 32 (s.tickCycle k j)).toNat = s.tickCycle k j := by
  rw [BitVec.toNat_ofNat, Nat.mod_eq_of_lt]
  cases j with
  | zero =>
    rw [State.tickCycle, Nat.zero_mul, Nat.add_zero]
    exact BitVec.isLt _
  | succ i =>
    have hroom := hready.headroom
    have hdue := h.due i (Nat.lt_succ_self i)
    rw [State.tickCycle_succ]
    exact Nat.lt_trans (m := neverNat) (by omega) (by decide)

theorem ticksTaken_start (hready : s.Ready) (hk : k < s.cfg.nchip) : TicksTaken k 0 s s where
  due := fun i hi => absurd hi (Nat.not_lt_zero i)
  alarm := by
    have harmed := (hready.inv.chip k hk).tod_armed
    rw [State.tickCycle, Nat.zero_mul, Nat.add_zero, BitVec.ofNat_toNat, BitVec.setWidth_eq, ← harmed]
  tod := (ite_self _).symm
  flag := by simp

/-- The callback of the tick alarm takes the next tick (45_chip_tod.md R243). -/
theorem TicksTaken.tick (h : TicksTaken k j s m) (hready : s.Ready) (hm : m.Ready) (hkeeps : DispatchKeeps s m)
    (hk : k < m.cfg.nchip) (hdue : (m.alarm (todSlot k)).due m.clk = true)
    (htick : todTick k (m.alarm (todSlot k)).target m = .ok m') : TicksTaken k (j + 1) s m' := by
  have hnext := h.toNat_next hready
  have hlen := hm.inv.chip_lt hk
  have hchip := hkeeps.chip k
  have htarget : (m.alarm (todSlot k)).target = BitVec.ofNat 32 (s.tickCycle k j) := by rw [h.alarm]
  have hle : s.tickCycle k j ≤ s.clk.toNat := by
    have := BitVec.le_def.mp (target_le_of_due hdue)
    rwa [htarget, hnext, hkeeps.clk] at this
  rw [htarget] at htick
  have halarm := alarm_todTick_self (hm.inv.todSlot_lt hk) htick
  obtain ⟨-, rfl⟩ := todTick_eq_ok.mp htick
  refine ⟨fun i hi => ?_, ?_, ?_, ?_⟩
  case refine_1 =>
    rcases Nat.lt_succ_iff_lt_or_eq.mp hi with hlt | rfl
    · exact h.due i hlt
    · exact hle
  case refine_2 => rw [halarm, hnext, hkeeps.cfg, State.tickCycle_succ]
  case refine_3 =>
    rw [State.chip_setAlarm, tod_todAdvance hlen, hchip.todStopped, h.tod]
    cases (s.chip k).todStopped <;> rfl
  case refine_4 =>
    rw [State.chip_setAlarm, flag_todAdvance hlen, h.flag, hchip.todStopped, hchip.todAlarm, h.tod, State.ReadWins,
      hkeeps.cfg, hchip.lastRead, Nat.exists_lt_succ_right, or_assoc, ← and_or_left]
    refine or_congr_right (and_congr_right fun hrun => ?_)
    rw [hrun]
    exact Iff.rfl

/-- Every callback of a dispatch takes one tick of chip `k` or none (41_alarm_scheduler.md R129). -/
theorem TicksTaken.fire {overrun : Nat} (h : TicksTaken k j s m) (hready : s.Ready) (hm : m.Ready)
    (hkeeps : DispatchKeeps s m) (hk : k < m.cfg.nchip) (hdue : (m.alarm a).due m.clk = true)
    (hfire : fire a overrun m = .ok m') : ∃ i, TicksTaken k i s m' := by
  rcases slot_cases a m.cfg.nchip with ⟨i, x, hi, rfl⟩ | ⟨i, hi, rfl⟩ | ha
  · rw [fire_slotOf hi] at hfire
    by_cases hki : k = i
    · subst hki
      exact ⟨j, h.of_sameTicking (Reconciling.updateTo hfire).sameTicking⟩
    · exact ⟨j, h.of_sameTicking ((OnlyChip.updateTo hfire).sameTicking hki)⟩
  · rw [fire_todSlot hi] at hfire
    by_cases hki : k = i
    · subst hki
      exact ⟨j + 1, h.tick hready hm hkeeps hk hdue hfire⟩
    · exact ⟨j, h.of_sameTicking ((OnlyChip.todTick hfire).sameTicking hki)⟩
  · rw [fire_external (Nat.not_lt_of_le ha)] at hfire
    cases hfire
    exact ⟨j, h.of_sameTicking (sameTicking_fire_external _ hk ha)⟩

/-! ### The whole dispatch -/

/-- The ticks up to the counter, the first at `T` (41_alarm_scheduler.md R134). -/
theorem ticks_count {T c p j : Nat} (hdue : ∀ i < j, T + i * p ≤ c) (hend : c < T + j * p) :
    j = if T ≤ c then (c - T) / p + 1 else 0 := by
  cases j with
  | zero => rw [if_neg (by omega)]
  | succ i =>
    have hlast := hdue i (Nat.lt_succ_self i)
    have hdiv : (c - T) / p = i := Nat.div_eq_of_lt_le (by omega) (by omega)
    rw [if_pos (by omega), hdiv]

/-- A dispatch takes every tick of a chip whose cycle has come, and no other (41_alarm_scheduler.md R128, R134). -/
theorem dispatch_ticks (hready : s.Ready) (hk : k < s.cfg.nchip) (h : dispatch s = .ok (m, n)) :
    ∃ j, TicksTaken k j s m ∧ s.clk.toNat < s.tickCycle k j := by
  obtain ⟨⟨-, hkeeps, j, htaken⟩, hend⟩ := dispatchLoop_keeps
    (P := fun m => m.Ready ∧ DispatchKeeps s m ∧ ∃ j, TicksTaken k j s m)
    (fun m m' a hm hfirst hfire => by
      obtain ⟨hm, hkeeps, j, htaken⟩ := hm
      have hdue := (State.firstDue_eq_some.mp hfirst).2.1
      exact ⟨ready_fire hm hdue hfire, hkeeps.trans (DispatchKeeps.fire hdue hfire),
        htaken.fire hready hm hkeeps (by rwa [hkeeps.cfg]) hdue hfire⟩)
    ⟨hready, DispatchKeeps.refl s, 0, ticksTaken_start hready hk⟩ h
  refine ⟨j, htaken, Nat.lt_of_not_le fun hle => ?_⟩
  have hnone := (State.firstDue_eq_none.mp hend).alarm (todSlot k)
  refine Bool.eq_false_iff.mp hnone (Alarm.due_iff.mpr ?_)
  rw [htaken.alarm, BitVec.le_def, htaken.toNat_next hready, hkeeps.clk]
  exact ⟨rfl, hle⟩

end

/-- Settles O53: the next tenth is `todInc_valid`, the callback is `todTick_ok` with `todAdvance` by its cases, and of a
dispatch it is `dispatch_ticks`. -/
theorem todIncIsNextTenth : Obligations.TodIncIsNextTenth := by
  unfold Obligations.TodIncIsNextTenth
  refine ⟨fun _ => todInc_valid, fun _ => todInc_masked, fun s k T hk hroom => ?_, fun s s₁ k hready hk hdispatch => ?_⟩
  case refine_1 =>
    rw [todTick_ok hroom, todAdvance_eq hk, updateLine_setChip_eq_ite hk]
    rfl
  case refine_2 =>
    obtain ⟨n, h⟩ := hdispatch
    obtain ⟨j, htaken, hend⟩ := dispatch_ticks hready hk h
    obtain rfl := ticks_count htaken.due hend
    exact ⟨htaken.alarm, htaken.tod, htaken.flag⟩

end Sys2Proof.Machine
end

section
/-! A restore whose payload is malformed (46_snapshot.md R266, R267): the refusal comes after the implicit dispatch and is
no fault. -/

namespace Sys2Proof.Machine

section
variable {k m : Nat} {s t : State}

/-- With the annex present its opcodes run like any other operation (30_encoding.md R87). -/
theorem perform_snapshotPresent (hpresent : s.cfg.hasSnapshot = true) (body : State → Result) :
    perform s (fun s => snapshotPresent s >>= fun _ => body s) = perform s body := by
  have hok : snapshotPresent s = .ok () := if_pos hpresent
  simp only [perform, hok, ok_bind]

/-- What `SNAP_RESTORE` makes of the state that the dispatch leads to (46_snapshot.md R266, R267). -/
theorem exec_snapRestore (hfault : s.fault = none) (hpresent : s.cfg.hasSnapshot = true) (hk : k < s.cfg.nchip)
    (hdispatch : dispatch s = .ok (t, m)) :
    exec (.snapRestore k) s = .next (conclude s
      (if malformed t.payloadIn t then .ok (t, .failed snapshotMalformed)
      else restoreFrom k t.payloadIn t >>= fun u => .ok (u, .nothing))) :=
  (perform_snapshotPresent hpresent _).trans (perform_onChip hfault hk hdispatch _)

/-- The dispatch leaves alone what makes a payload malformed (46_snapshot.md R266). -/
theorem malformed_of_dispatch (hdispatch : dispatch s = .ok (t, m)) :
    malformed t.payloadIn t = malformed s.payloadIn s := by
  have hkeeps := (DispatchKeeps.dispatch hdispatch).1
  rw [malformed, malformed, hkeeps.payloadIn, hkeeps.cfg, hkeeps.clk]

end

/-- Settles O57: `malformed_iff` names the causes, and the dispatch changes none of them. -/
theorem snapRestoreMalformed : Obligations.SnapRestoreMalformed := by
  unfold Obligations.SnapRestoreMalformed
  intro s k hready hk hpresent hcause
  obtain ⟨t, m, hdispatch, hready', -⟩ := dispatch_of_ready hready
  have hbad : malformed t.payloadIn t = true := by
    rw [malformed_of_dispatch hdispatch, malformed_iff]
    rcases hcause with hlength | hmajor | hminor | htick
    · exact .inl (.inl hlength)
    · exact .inl (.inr (.inl hmajor))
    · exact .inl (.inr (.inr hminor))
    · exact .inr htick
  refine ⟨t, ⟨m, hdispatch⟩, hready'.no_fault, ?_⟩
  rw [exec_snapRestore hready.no_fault hpresent hk hdispatch, if_pos hbad]
  rfl

end Sys2Proof.Machine
end

section
/-! The restore of a well-formed payload (46_snapshot.md R266, R268): with room below `NEVER` for a channel's next underflow
it is one assignment to the chip and one to each of its slots. -/

namespace Sys2Proof.Machine

section
variable {k : Nat} {x : Channel} {p : List Byte} {s t : State}

/-! ### A slot written with what it holds, or over again -/

theorem State.setAlarm_alarm_self {a : Nat} {al : Alarm} (ha : a < s.alarms.length) (h : s.alarm a = al) :
    s.setAlarm a al = s := by
  have hget : s.alarms[a] = al := by rw [← h, State.alarm, List.getD_eq_getElem _ _ ha]
  have hset : s.alarms.set a al = s.alarms := by rw [← hget, List.set_getElem_self]
  rw [State.setAlarm, hset]

theorem State.setAlarm_comm {a b : Nat} (h : a ≠ b) (al bl : Alarm) :
    (s.setAlarm a al).setAlarm b bl = (s.setAlarm b bl).setAlarm a al := by
  simp only [State.setAlarm, List.set_comm _ _ h]

theorem State.setAlarm_setAlarm (a : Nat) (al bl : Alarm) : (s.setAlarm a al).setAlarm a bl = s.setAlarm a bl := by
  simp only [State.setAlarm, List.set_set]

theorem State.setChip_setAlarm (k a : Nat) (c : Chip) (al : Alarm) :
    (s.setAlarm a al).setChip k c = (s.setChip k c).setAlarm a al := rfl

/-! ### A channel armed again -/

/-- The channel with its next underflow as its counter gives it: `clk + max(cnt, 1)` while it counts cycles, else none
(46_snapshot.md R266, R268). -/
def Chip.rearmed (c : Chip) (x : Channel) (clk : Cycle) : Chan :=
  { c.chan x with
    u := if c.chanState x = .running then BitVec.ofNat 32 (clk.toNat + max (c.chan x).cnt.toNat 1) else never }

/-- The slot of a channel armed again (46_snapshot.md R266). -/
def Chip.rearmedSlot (c : Chip) (x : Channel) (clk : Cycle) : Alarm :=
  if c.chanState x = .running then ⟨true, (c.rearmed x clk).u⟩ else ⟨false, never⟩

theorem Chip.setChan_chan_self (c : Chip) (x : Channel) : c.setChan x (c.chan x) = c := by cases x <;> rfl

/-- Channel `x` of chip `k` armed again (46_snapshot.md R266). -/
def rearmed (k : Nat) (x : Channel) (s : State) : State :=
  (s.setChan k x ((s.chip k).rearmed x s.clk)).setAlarm (slotOf k x) ((s.chip k).rearmedSlot x s.clk)

theorem OnlyChannel.rearmed (k : Nat) (x : Channel) (s : State) : OnlyChannel k x s (rearmed k x s) :=
  (OnlyChannel.setChan k x _ s).trans (OnlyChannel.setAlarm k x _ _)

theorem rearmed_of_chip {c : Chip} (h : s.chip k = c) :
    rearmed k x s = (s.setChip k (c.setChan x (c.rearmed x s.clk))).setAlarm (slotOf k x) (c.rearmedSlot x s.clk) := by
  rw [rearmed, State.setChan, h]

theorem chip_rearmed (hk : k < s.chips.length) :
    (rearmed k x s).chip k = (s.chip k).setChan x ((s.chip k).rearmed x s.clk) :=
  State.chip_setChip_self s _ hk

/-- In a channel that counts no cycles arming again assigns the values it has (46_snapshot.md R266). -/
theorem rearmChannel_of_unarmed (h : Unarmed k x s) (hk : k < s.chips.length) (hslot : slotOf k x < s.alarms.length)
    (hroom : s.clk.toNat + 65536 < neverNat) : rearmChannel k x s = .ok (rearmed k x s) := by
  rw [rearmChannel_eq, rearmed]
  by_cases hrun : (s.chip k).chanState x = .running
  case pos =>
    have hcnt := ((s.chip k).chan x).cnt.isLt
    rw [if_pos hrun, schedule_of_lt (by omega), scheduled, Chip.rearmedSlot, Chip.rearmed, if_pos hrun, if_pos hrun]
  case neg =>
    have hchan : (s.chip k).rearmed x s.clk = (s.chip k).chan x := by rw [Chip.rearmed, if_neg hrun, ← h.u]
    rw [if_neg hrun, hchan, State.setChan, Chip.setChan_chan_self, State.setChip_chip_self s hk, Chip.rearmedSlot,
      if_neg hrun, State.setAlarm_alarm_self hslot h.slot]

/-! ### The whole restore -/

/-- The chip that a payload gives, its channels armed again (46_snapshot.md R266). -/
def loadedChip (cfg : Config) (clk : Cycle) (p : List Byte) (old : Chip) : Chip :=
  let c := restoredChip cfg clk p old
  { c with chanA := c.rearmed .A clk, chanB := c.rearmed .B clk }

/-- The state after the assignments of a restore, its line not yet updated (46_snapshot.md R266). -/
def loaded (k : Nat) (p : List Byte) (s : State) : State :=
  let c := loadedChip s.cfg s.clk p (s.chip k)
  (((s.setChip k c).setAlarm (slotOf k .A) (c.rearmedSlot .A s.clk)).setAlarm (slotOf k .B)
    (c.rearmedSlot .B s.clk)).setAlarm (todSlot k) ⟨true, BitVec.ofNat 32 (s.clk.toNat + tickDelta p)⟩

/-- The slots are written twice, first disarmed: the second time counts (46_snapshot.md R266). -/
theorem setAlarm_unarmed (k : Nat) (s : State) (a b d : Alarm) :
    (((alarmUnset (todSlot k) (unarmed k s)).setAlarm (slotOf k .A) a).setAlarm (slotOf k .B) b).setAlarm (todSlot k) d =
      ((s.setAlarm (slotOf k .A) a).setAlarm (slotOf k .B) b).setAlarm (todSlot k) d := by
  have hAB : slotOf k .A ≠ slotOf k .B := fun h => nomatch (slotOf_inj h).2
  have hA := slotOf_ne_todSlot k k .A
  have hB := slotOf_ne_todSlot k k .B
  simp only [unarmed, alarmUnset]
  rw [State.setAlarm_comm hA.symm, State.setAlarm_comm hB.symm, State.setAlarm_setAlarm, State.setAlarm_comm hAB.symm,
    State.setAlarm_setAlarm, State.setAlarm_setAlarm]

/-- The chip and the slots as the payload gives them, the channels armed again one after the other, and the tick armed:
together one assignment to each (46_snapshot.md R266). -/
theorem rearmed_restored (hk : k < s.chips.length) :
    (rearmed k .B (rearmed k .A (restored k p s))).setAlarm (todSlot k)
      ⟨true, BitVec.ofNat 32 (s.clk.toNat + tickDelta p)⟩ = loaded k p s := by
  have hchip : (restored k p s).chip k = restoredChip s.cfg s.clk p (s.chip k) := State.chip_setChip_self _ _ hk
  have hchipA : (rearmed k .A (restored k p s)).chip k = (restoredChip s.cfg s.clk p (s.chip k)).setChan .A
      ((restoredChip s.cfg s.clk p (s.chip k)).rearmed .A s.clk) := by
    rw [chip_rearmed (by rwa [(OnlyChip.restored k p s).chips_length]), hchip]
    rfl
  rw [rearmed_of_chip hchipA, rearmed_of_chip hchip, State.setChip_setAlarm, State.setChip_setChip, restored,
    State.setChip_setChip]
  exact congrArg (State.setChip · k (loadedChip s.cfg s.clk p (s.chip k))) (setAlarm_unarmed k s _ _ _)

theorem restoreFrom_of_room (hk : k < s.chips.length) (hslot : ∀ x, slotOf k x < s.alarms.length)
    (hroom : s.clk.toNat + 65536 < neverNat) (htick : s.clk.toNat + tickDelta p < neverNat) :
    restoreFrom k p s = .ok (updateLine k s.clk (loaded k p s)) := by
  have hbase := OnlyChip.restored k p s
  have hA := OnlyChannel.rearmed k .A (restored k p s)
  have hunarmed := Unarmed.of_restored p hk
  have harmA : rearmChannel k .A (restored k p s) = .ok (rearmed k .A (restored k p s)) :=
    rearmChannel_of_unarmed (hunarmed .A) (by rwa [hbase.chips_length]) (by rw [hbase.alarms_length]; exact hslot .A) hroom
  have harmB : rearmChannel k .B (rearmed k .A (restored k p s)) = .ok (rearmed k .B (rearmed k .A (restored k p s))) :=
    rearmChannel_of_unarmed ((hunarmed .B).onlyChannel hA (by decide)) (by rwa [hA.chips_length, hbase.chips_length])
      (by rw [hA.alarms_length, hbase.alarms_length]; exact hslot .B) hroom
  have htod : alarmSet (todSlot k) (s.clk.toNat + tickDelta p) (rearmed k .B (rearmed k .A (restored k p s))) =
      .ok (loaded k p s) := by
    rw [alarmSet_ok htick, rearmed_restored hk]
  rw [restoreFrom_eq, harmA, ok_bind, harmB, ok_bind]
  exact congrArg (· >>= fun u => .ok (updateLine k u.clk u)) htod

/-- `SNAP_RESTORE` of a well-formed payload (46_snapshot.md R266). -/
theorem exec_snapRestore_of_wellFormed {m : Nat} (hfault : s.fault = none) (hpresent : s.cfg.hasSnapshot = true)
    (hk : k < s.cfg.nchip) (hdispatch : dispatch s = .ok (t, m)) (hready : t.Ready)
    (hformed : ¬malformed s.payloadIn s = true) :
    exec (.snapRestore k) s = .next ((updateLine k t.clk (loaded k s.payloadIn t)).answer .nothing) := by
  have hkeeps := (DispatchKeeps.dispatch hdispatch).1
  have hkt : k < t.cfg.nchip := by rwa [hkeeps.cfg]
  have htick : t.clk.toNat + tickDelta s.payloadIn < neverNat := by
    rw [hkeeps.clk]
    exact Nat.lt_of_not_le fun h => hformed ((malformed_iff _ _).mpr (.inr h))
  have hrestore : restoreFrom k t.payloadIn t = .ok (updateLine k t.clk (loaded k s.payloadIn t)) := by
    rw [hkeeps.payloadIn]
    exact restoreFrom_of_room (hready.inv.chip_lt hkt) (hready.inv.slotOf_lt hkt) hready.room htick
  rw [exec_snapRestore hfault hpresent hk hdispatch, malformed_of_dispatch hdispatch, if_neg hformed, hrestore]
  rfl

theorem chip_loaded (hk : k < s.chips.length) :
    (loaded k p s).chip k = loadedChip s.cfg s.clk p (s.chip k) := State.chip_setChip_self s _ hk

/-- A restore keeps no mask bit above the flags, so that the summary needs no cut (46_snapshot.md R266). -/
theorem summary_loadedChip (cfg : Config) (clk : Cycle) (old : Chip) :
    (loadedChip cfg clk p old).summary =
      decide ((loadedChip cfg clk p old).flags &&& (loadedChip cfg clk p old).mask ≠ 0) :=
  Chip.summary_of_mask_low (Chip.restored_sound cfg clk p old).mask_low

end

/-- Settles O58: the restore is `loaded` with the line updated, its chip being `loadedChip`. -/
theorem snapRestoreLoads : Obligations.SnapRestoreLoads := by
  unfold Obligations.SnapRestoreLoads
  intro s k hready hk hpresent hlength hmajor hminor htick
  obtain ⟨t, m, hdispatch, hready', -⟩ := dispatch_of_ready hready
  have hkeeps := (DispatchKeeps.dispatch hdispatch).1
  have hlt : k < t.chips.length := by
    rw [hkeeps.chips_length]
    exact hready.inv.chip_lt hk
  have hformed : ¬malformed s.payloadIn s = true := by
    rw [malformed_iff, not_or]
    exact ⟨fun h => h.elim (· hlength) (·.elim (· hmajor) (· hminor)), Nat.not_le.mpr htick⟩
  have hexec := exec_snapRestore_of_wellFormed hready.no_fault hpresent hk hdispatch hready' hformed
  rw [updateLine, chip_loaded hlt, summary_loadedChip, loaded, hkeeps.cfg, hkeeps.clk] at hexec
  exact ⟨t, ⟨m, hdispatch⟩, hexec⟩

end Sys2Proof.Machine
end

section
/-! The payload of a save (46_snapshot.md R261 to R263): its bytes, and what its items of several bytes, several bits or
with a bias read back as. -/

namespace Sys2Proof.Machine

section
variable {k : Nat} {clk tick : Cycle} {cfg : Config} {c : Chip} {s t : State}

/-! ### The bytes -/

/-- The 39 bytes as a function of the chip, the parameters, the counter and the cycles to the tick, one entry per offset of
46_snapshot.md R261. -/
def Chip.snapBytes (c : Chip) (cfg : Config) (clk tick : Cycle) : List Byte :=
  [cfg.snapMajor, cfg.snapMinor, c.pra, c.prb, c.ddra, c.ddrb,
    (c.live .A clk).extractLsb' 0 8, (c.live .A clk).extractLsb' 8 8,
    (c.live .B clk).extractLsb' 0 8, (c.live .B clk).extractLsb' 8 8,
    c.tod.tenths, c.tod.seconds, c.tod.minutes, c.tod.hours,
    c.todLatch.tenths, c.todLatch.seconds, c.todLatch.minutes, c.todLatch.hours,
    c.todAlarm.tenths, c.todAlarm.seconds, c.todAlarm.minutes, c.todAlarm.hours,
    c.todStatusByte, c.sdr, c.mask, c.cra, c.crb,
    c.chanA.latch.extractLsb' 0 8, c.chanA.latch.extractLsb' 8 8,
    c.chanB.latch.extractLsb' 0 8, c.chanB.latch.extractLsb' 8 8,
    c.flags, c.toggleByte, c.srBits.setWidth 8, rdiByte cfg c.lastRead clk,
    tick.extractLsb' 0 8, tick.extractLsb' 8 8, tick.extractLsb' 16 8, tick.extractLsb' 24 8]

theorem snapPayload_eq (k : Nat) (s : State) :
    snapPayload k s = (s.chip k).snapBytes s.cfg s.clk ((s.alarm (todSlot k)).target - s.clk) := rfl

/-! ### Items of several bytes -/

/-- A 16-bit item read back (46_snapshot.md R261). -/
theorem append_bytes16 (v : Count) : v.extractLsb' 8 8 ++ v.extractLsb' 0 8 = v :=
  BitVec.extractLsb'_append_extractLsb' (w := 8) (len := 8)

/-- A 32-bit item read back (46_snapshot.md R261). -/
theorem append_bytes32 (v : BitVec 32) :
    v.extractLsb' 24 8 ++ v.extractLsb' 16 8 ++ v.extractLsb' 8 8 ++ v.extractLsb' 0 8 = v := by
  have h16 : v.extractLsb' 24 8 ++ v.extractLsb' 16 8 = v.extractLsb' 16 16 :=
    BitVec.extractLsb'_append_extractLsb'_eq_extractLsb' rfl
  have h8 : v.extractLsb' 16 16 ++ v.extractLsb' 8 8 = v.extractLsb' 8 24 :=
    BitVec.extractLsb'_append_extractLsb'_eq_extractLsb' rfl
  rw [h16, h8]
  exact BitVec.extractLsb'_append_extractLsb' (w := 24) (len := 8)

theorem p16_snapBytes_live (c : Chip) (cfg : Config) (clk tick : Cycle) :
    p16 (c.snapBytes cfg clk tick) 6 = c.live .A clk ∧
    p16 (c.snapBytes cfg clk tick) 8 = c.live .B clk := ⟨append_bytes16 _, append_bytes16 _⟩

theorem p16_snapBytes_latch (c : Chip) (cfg : Config) (clk tick : Cycle) :
    p16 (c.snapBytes cfg clk tick) 27 = c.chanA.latch ∧
    p16 (c.snapBytes cfg clk tick) 29 = c.chanB.latch := ⟨append_bytes16 _, append_bytes16 _⟩

theorem p32_snapBytes (c : Chip) (cfg : Config) (clk tick : Cycle) : p32 (c.snapBytes cfg clk tick) 35 = tick :=
  append_bytes32 _

/-! ### Bytes of several bits -/

/-- The two bits of the status byte (46_snapshot.md R261). -/
theorem Chip.todStatusByte_bits (c : Chip) : c.todStatusByte.getLsbD 0 = c.todLatched ∧
    c.todStatusByte.getLsbD 1 = c.todStopped ∧ c.todStatusByte.toNat = c.todLatched.toNat + 2 * c.todStopped.toNat := by
  unfold Chip.todStatusByte
  cases c.todLatched <;> cases c.todStopped <;> exact ⟨rfl, rfl, rfl⟩

/-- The two bits of the toggle byte (46_snapshot.md R261). -/
theorem Chip.toggleByte_bits (c : Chip) : c.toggleByte.getLsbD 6 = c.chanA.toggle ∧
    c.toggleByte.getLsbD 7 = c.chanB.toggle ∧
    c.toggleByte.toNat = 64 * c.chanA.toggle.toNat + 128 * c.chanB.toggle.toNat := by
  unfold Chip.toggleByte
  cases c.chanA.toggle <;> cases c.chanB.toggle <;> exact ⟨rfl, rfl, rfl⟩

theorem toNat_srByte (n : BitVec 5) : (n.setWidth 8).toNat = n.toNat := BitVec.toNat_setWidth_of_le (by decide)

/-- The half-bits are within the cap of a restore (46_snapshot.md R266). -/
theorem ofNat_min_srByte {n : BitVec 5} (h : n.toNat ≤ 16) : BitVec.ofNat 5 (min (n.setWidth 8).toNat 16) = n := by
  rw [toNat_srByte, Nat.min_eq_left h, BitVec.ofNat_toNat, BitVec.setWidth_eq]

/-! ### The read-clock byte -/

/-- The read-clock byte of a recorded read: its age with the bias, or 0 where it is too old (46_snapshot.md R263). -/
theorem toNat_rdiByte (hcfg : cfg.Wf) (r clk : Cycle) : (rdiByte cfg (some r) clk).toNat =
    if clk.toNat - r.toNat > cfg.snapRdiMax then 0 else clk.toNat - r.toNat + cfg.snapRdiBias := by
  have hfits := hcfg.rdi_fits
  unfold rdiByte
  dsimp only
  split
  case isTrue hold => rfl
  case isFalse hyoung =>
    rw [BitVec.toNat_ofNat]
    exact Nat.mod_eq_of_lt (by omega)

/-- A recorded read young enough to be saved comes back (46_snapshot.md R263). -/
theorem lastReadOf_rdiByte (hcfg : cfg.Wf) {l : Option Cycle} (hle : ∀ r ∈ l, r ≤ clk)
    (hyoung : ∀ r ∈ l, clk.toNat - r.toNat ≤ cfg.snapRdiMax) : lastReadOf cfg (rdiByte cfg l clk) clk = l := by
  have hbias := hcfg.rdiBias_ge
  cases l with
  | none => exact if_pos (.inl hbias)
  | some r =>
    have hr := BitVec.le_def.mp (hle r rfl)
    have hbyte := toNat_rdiByte hcfg r clk
    rw [if_neg (Nat.not_lt.mpr (hyoung r rfl))] at hbyte
    have hage : clk.toNat - (clk.toNat - r.toNat + cfg.snapRdiBias - cfg.snapRdiBias) = r.toNat := by omega
    rw [lastReadOf, hbyte, if_neg (by omega), hage, BitVec.ofNat_toNat, BitVec.setWidth_eq]

/-! ### The tick -/

/-- The tick of a chip with nothing due is still to come (41_alarm_scheduler.md R128; 43_chip_timers.md R162). -/
theorem clk_lt_tick (hchip : ChipInv s k) (hnone : s.NoneDue) : s.clk < (s.alarm (todSlot k)).target := by
  have hdue := hnone.alarm (todSlot k)
  simpa [Alarm.due, hchip.tod_armed] using hdue

theorem toNat_tick_sub (hchip : ChipInv s k) (hnone : s.NoneDue) :
    ((s.alarm (todSlot k)).target - s.clk).toNat = (s.alarm (todSlot k)).target.toNat - s.clk.toNat :=
  BitVec.toNat_sub_of_le (BitVec.le_of_lt (clk_lt_tick hchip hnone))

/-! ### The save -/

theorem OpensTo.exec_snapSave (h : OpensTo k s t) (hpresent : s.cfg.hasSnapshot = true) :
    exec (.snapSave k) s = .next (t.answer ⟨0, 39, snapPayload k t⟩) :=
  (perform_snapshotPresent hpresent _).trans (h.perform_accessChip _)

end

/-- Settles O56: the payload is `snapPayload` of the opened state, whose items of more than a byte read back by the lemmas
above. -/
theorem snapSaveLayout : Obligations.SnapSaveLayout := by
  unfold Obligations.SnapSaveLayout
  intro s k hready hk hpresent
  obtain ⟨t, h⟩ := opened_of_ready hready hk
  have hchip := h.ready.inv.chip k (h.nchip_lt hk)
  have hlive := h.live
  rw [← h.clk] at hlive
  have htick := BitVec.lt_def.mp (clk_lt_tick hchip h.none_due)
  have hdelta := toNat_tick_sub hchip h.none_due
  obtain ⟨-, -, hstatus⟩ := (t.chip k).todStatusByte_bits
  obtain ⟨-, -, htoggle⟩ := (t.chip k).toggleByte_bits
  obtain ⟨hliveA, hliveB⟩ := p16_snapBytes_live (t.chip k) t.cfg t.clk ((t.alarm (todSlot k)).target - t.clk)
  obtain ⟨hlatchA, hlatchB⟩ := p16_snapBytes_latch (t.chip k) t.cfg t.clk ((t.alarm (todSlot k)).target - t.clk)
  refine ⟨t, snapPayload k t, h.accessed, h.opens.exec_snapSave hpresent, ?_⟩
  rw [← h.cfg, ← h.clk, snapPayload_eq]
  refine ⟨rfl, rfl, rfl, rfl, rfl, rfl, rfl, hliveA.trans (hlive .A), hliveB.trans (hlive .B),
    rfl, rfl, rfl, rfl, rfl, rfl, rfl, rfl, rfl, rfl, rfl, rfl, hstatus, rfl, rfl, rfl, rfl, hlatchA, hlatchB, rfl,
    htoggle, toNat_srByte _, fun hnone => ?_, fun r hread => ?_, ?_, Nat.sub_pos_of_lt htick⟩
  case refine_1 => exact congrArg (rdiByte t.cfg · t.clk) hnone
  case refine_2 =>
    exact (congrArg (fun l => (rdiByte t.cfg l t.clk).toNat) hread).trans (toNat_rdiByte h.ready.inv.cfg_wf r t.clk)
  case refine_3 => rw [p32_snapBytes, hdelta]; rfl

end Sys2Proof.Machine
end

section
/-! The round trip (46_snapshot.md R269): what a restore of a saved payload makes of the chip at the cycle of the save, where
every field fits its byte and the channels are armed where they were. -/

namespace Sys2Proof.Machine

section
variable {k : Nat} {x : Channel} {clk tick : Cycle} {cfg : Config} {c : Chip} {s t : State}

/-! ### The registers -/

/-- A byte inside a mask is left alone by it. -/
theorem and_eq_self_of_masked {b m n : Byte} (h : b &&& m = 0) (hmn : n ||| m = BitVec.allOnes 8) : b &&& n = b :=
  calc b &&& n = b &&& n ||| b &&& m := by rw [h]; exact BitVec.or_zero.symm
    _ = b &&& (n ||| m) := BitVec.and_or_distrib_left.symm
    _ = b := by rw [hmn, BitVec.and_allOnes]

/-- The group with its write masks applied (45_chip_tod.md R240). -/
def Tod.cut (d : Tod) : Tod := ⟨d.tenths &&& 0x0F, d.seconds &&& 0x7F, d.minutes &&& 0x7F, d.hours &&& 0x9F⟩

theorem Tod.cut_of_masked {d : Tod} (h : d.Masked) : d.cut = d := by
  obtain ⟨htenths, hseconds, hminutes, hhours⟩ := h
  rw [Tod.cut, and_eq_self_of_masked htenths rfl, and_eq_self_of_masked hseconds rfl, and_eq_self_of_masked hminutes rfl,
    and_eq_self_of_masked hhours rfl]

/-- A restore of a saved chip leaves all but the channels' place in time (46_snapshot.md R266). -/
theorem restoredChip_snapBytes (hsound : c.Sound) (hcfg : cfg.Wf) (hread : ∀ r ∈ c.lastRead, r ≤ clk)
    (hyoung : ∀ r ∈ c.lastRead, clk.toNat - r.toNat ≤ cfg.snapRdiMax) :
    restoredChip cfg clk (c.snapBytes cfg clk tick) c =
      { c with
        chanA := { c.chanA with cnt := c.live .A clk, u := never }
        chanB := { c.chanB with cnt := c.live .B clk, u := never }
        rc := clk } := by
  obtain ⟨hliveA, hliveB⟩ := p16_snapBytes_live c cfg clk tick
  obtain ⟨hlatchA, hlatchB⟩ := p16_snapBytes_latch c cfg clk tick
  obtain ⟨hlatched, hstopped, -⟩ := c.todStatusByte_bits
  obtain ⟨htoggleA, htoggleB, -⟩ := c.toggleByte_bits
  calc restoredChip cfg clk (c.snapBytes cfg clk tick) c
      = { c with
          chanA := ⟨p16 (c.snapBytes cfg clk tick) 27, p16 (c.snapBytes cfg clk tick) 6, never, c.toggleByte.getLsbD 6⟩
          chanB := ⟨p16 (c.snapBytes cfg clk tick) 29, p16 (c.snapBytes cfg clk tick) 8, never, c.toggleByte.getLsbD 7⟩
          tod := c.tod.cut
          todLatch := c.todLatch.cut
          todAlarm := c.todAlarm.cut
          todLatched := c.todStatusByte.getLsbD 0
          todStopped := c.todStatusByte.getLsbD 1
          mask := c.mask &&& 0x0F
          cra := c.cra &&& 0xEF
          crb := c.crb &&& 0xEF
          flags := c.flags &&& 0x0F
          srBits := BitVec.ofNat 5 (min (c.srBits.setWidth 8).toNat 16)
          lastRead := lastReadOf cfg (rdiByte cfg c.lastRead clk) clk
          rc := clk } := rfl
    _ = _ := by
      rw [hliveA, hliveB, hlatchA, hlatchB, hlatched, hstopped, htoggleA, htoggleB, Tod.cut_of_masked hsound.tod_masked,
        Tod.cut_of_masked hsound.todLatch_masked, Tod.cut_of_masked hsound.todAlarm_masked,
        and_eq_self_of_masked hsound.mask_low rfl, and_eq_self_of_masked hsound.flags_low rfl,
        and_eq_self_of_masked hsound.cra_strobe rfl, and_eq_self_of_masked hsound.crb_strobe rfl,
        ofNat_min_srByte hsound.srBits_le, lastReadOf_rdiByte hcfg hread hyoung]

/-! ### The channels -/

/-- A channel whose next underflow is the one its counter shows is armed again where it is (46_snapshot.md R268, R269). -/
theorem rearmed_of_inv (hchan : ChanInv s k x)
    (hnext : (s.chip k).chanState x = .running →
      ((s.chip k).chan x).u.toNat = s.clk.toNat + max ((s.chip k).chan x).cnt.toNat 1) :
    (s.chip k).rearmed x s.clk = (s.chip k).chan x ∧ (s.chip k).rearmedSlot x s.clk = s.alarm (slotOf k x) := by
  by_cases hrun : (s.chip k).chanState x = .running
  case pos =>
    have hsame : (s.chip k).rearmed x s.clk = (s.chip k).chan x := by
      rw [Chip.rearmed, if_pos hrun, ← hnext hrun, BitVec.ofNat_toNat, BitVec.setWidth_eq]
    rw [Chip.rearmedSlot, if_pos hrun, hsame, hchan.running_armed hrun]
    exact ⟨rfl, rfl⟩
  case neg =>
    have hsame : (s.chip k).rearmed x s.clk = (s.chip k).chan x := by
      rw [Chip.rearmed, if_neg hrun, ← hchan.idle_never hrun]
    rw [Chip.rearmedSlot, if_neg hrun, hsame, hchan.idle_disarmed hrun]
    exact ⟨rfl, rfl⟩

theorem loadedChip_snapBytes (hsound : c.Sound) (hcfg : cfg.Wf) (hread : ∀ r ∈ c.lastRead, r ≤ clk)
    (hyoung : ∀ r ∈ c.lastRead, clk.toNat - r.toNat ≤ cfg.snapRdiMax) (hrc : c.rc = clk)
    (hlive : ∀ x, c.live x clk = (c.chan x).cnt) (hrearmed : ∀ x, c.rearmed x clk = c.chan x) :
    loadedChip cfg clk (c.snapBytes cfg clk tick) c = c := by
  rw [loadedChip, restoredChip_snapBytes hsound hcfg hread hyoung, hlive, hlive]
  calc _ = { c with chanA := c.rearmed .A clk, chanB := c.rearmed .B clk, rc := clk } := rfl
    _ = c := by rw [hrearmed, hrearmed, ← hrc]; rfl

/-! ### The tick -/

theorem clk_add_tickDelta (hchip : ChipInv s k) (hnone : s.NoneDue) :
    s.clk.toNat + tickDelta (snapPayload k s) = (s.alarm (todSlot k)).target.toNat := by
  have hlt := BitVec.lt_def.mp (clk_lt_tick hchip hnone)
  rw [tickDelta, snapPayload_eq, p32_snapBytes, toNat_tick_sub hchip hnone]
  omega

theorem wellFormed_snapPayload (hinv : s.Inv) (hk : k < s.cfg.nchip) (hnone : s.NoneDue) :
    ¬malformed (snapPayload k s) s = true := by
  have hchip := hinv.chip k hk
  have hmem : s.alarm (todSlot k) ∈ s.alarms := by
    rw [State.alarm, List.getD_eq_getElem _ _ (hinv.todSlot_lt hk)]
    exact List.getElem_mem _
  have hlt := hinv.armed_lt _ hmem hchip.tod_armed
  rw [malformed_iff, clk_add_tickDelta hchip hnone, snapPayload_eq]
  rintro ((hlength | hmajor | hminor) | htick)
  · exact hlength rfl
  · exact hmajor rfl
  · exact hminor rfl
  · exact Nat.not_le.mpr hlt htick

/-! ### The whole state -/

/-- A chip that is reconciled at `clk`, with nothing due, can be saved and restored there without loss
(46_snapshot.md R269; DESIGN CHOICE, notes/assumptions/24.md). -/
structure Restorable (k : Nat) (s : State) : Prop where
  ready : s.Ready
  none_due : s.NoneDue
  nchip_lt : k < s.cfg.nchip
  rc : (s.chip k).rc = s.clk
  live : ∀ x, (s.chip k).live x s.clk = ((s.chip k).chan x).cnt
  next : ∀ x, (s.chip k).chanState x = .running →
    ((s.chip k).chan x).u.toNat = s.clk.toNat + max ((s.chip k).chan x).cnt.toNat 1
  young : ∀ r ∈ (s.chip k).lastRead, s.clk.toNat - r.toNat ≤ s.cfg.snapRdiMax

/-- What stands at the command port has no part in it (30_encoding.md R83). -/
theorem Restorable.presented (h : Restorable k s) (q : Reply) (p : List Byte) :
    Restorable k { s.answer q with payloadIn := p } where
  ready := ⟨h.ready.inv.of_eq rfl rfl rfl rfl rfl fun l => by cases l <;> rfl, h.ready.no_fault, h.ready.headroom⟩
  none_due := h.none_due
  nchip_lt := h.nchip_lt
  rc := h.rc
  live := h.live
  next := h.next
  young := h.young

/-- The assignments of a restore of the saved payload leave everything as it is (46_snapshot.md R269). -/
theorem Restorable.loaded (h : Restorable k s) : loaded k (snapPayload k s) s = s := by
  have hinv := h.ready.inv
  have hchip := hinv.chip k h.nchip_lt
  have hrearmed (x : Channel) := rearmed_of_inv (hchip.chan x) (h.next x)
  have hloaded : loadedChip s.cfg s.clk (snapPayload k s) (s.chip k) = s.chip k :=
    loadedChip_snapBytes hchip.sound hinv.cfg_wf (fun r hr => h.rc ▸ hchip.lastRead_le r hr) h.young h.rc h.live
      fun x => (hrearmed x).1
  have htod : (⟨true, BitVec.ofNat 32 (s.clk.toNat + tickDelta (snapPayload k s))⟩ : Alarm) = s.alarm (todSlot k) := by
    rw [clk_add_tickDelta hchip h.none_due, BitVec.ofNat_toNat, BitVec.setWidth_eq, ← hchip.tod_armed]
  have hslot (x : Channel) : s.setAlarm (slotOf k x) (s.alarm (slotOf k x)) = s :=
    State.setAlarm_alarm_self (hinv.slotOf_lt h.nchip_lt x) rfl
  rw [Sys2Proof.Machine.loaded, hloaded, State.setChip_chip_self s (hinv.chip_lt h.nchip_lt), (hrearmed .A).2,
    (hrearmed .B).2, htod, hslot, hslot, State.setAlarm_alarm_self (hinv.todSlot_lt h.nchip_lt) rfl]

/-- `SNAP_RESTORE` of the payload of a save here changes nothing but the answer (46_snapshot.md R269). -/
theorem Restorable.exec_snapRestore (h : Restorable k s) (hpresent : s.cfg.hasSnapshot = true)
    (hpayload : s.payloadIn = snapPayload k s) : exec (.snapRestore k) s = .next (s.answer .nothing) := by
  have hformed : ¬malformed s.payloadIn s = true := by
    rw [hpayload]
    exact wellFormed_snapPayload h.ready.inv h.nchip_lt h.none_due
  have hline : updateLine k s.clk s = s :=
    aggSet_self _ (h.ready.inv.tracked h.nchip_lt).source_eq (h.ready.inv.tracked h.nchip_lt).src_lt
  rw [exec_snapRestore_of_wellFormed h.ready.no_fault hpresent h.nchip_lt (dispatch_of_noneDue h.none_due) h.ready
    hformed, hpayload, h.loaded, hline]

end

/-- Settles O59: the opening of the save leaves a `Restorable` state, and its payload is the one restored. -/
theorem snapshotRoundTrip : Obligations.SnapshotRoundTrip := by
  unfold Obligations.SnapshotRoundTrip
  intro s t k hready hk hpresent hsave hnext hyoung
  obtain ⟨u, h⟩ := opened_of_ready hready hk
  cases (h.opens.exec_snapSave hpresent).symm.trans hsave
  have hrestorable : Restorable k u :=
    ⟨h.ready, h.none_due, h.nchip_lt hk, h.rc.trans h.clk.symm, h.clk ▸ h.live, hnext, hyoung⟩
  have hpresent' : u.cfg.hasSnapshot = true := by rw [h.cfg, hpresent]
  exact (hrestorable.presented ⟨0, 39, snapPayload k u⟩ (snapPayload k u)).exec_snapRestore hpresent' rfl

end Sys2Proof.Machine
end

section
/-! The faults that a computation does not raise (60_exceptions.md R282 to R285): `Avoids f`. A check raises the fault
that it is for, and no shared operation raises `IllegalOp`, which is for opcodes alone. -/

namespace Sys2Proof.Machine

/-- The computation does not raise fault `f`. -/
def Avoids {α : Type} (f : FaultCode) (x : Except FaultCode α) : Prop := x ≠ .error f

section
variable {α β : Type} {f g : FaultCode} {k : Nat} {x : Channel} {s : State}

/-! ### The fault monad -/

theorem avoids_ok (a : α) : Avoids f (.ok a) := nofun

theorem avoids_of_eq_ok {y : Except FaultCode α} {a : α} (h : y = .ok a) : Avoids f y := h ▸ avoids_ok a

theorem Avoids.bind {y : Except FaultCode α} {next : α → Except FaultCode β} (hy : Avoids f y)
    (hnext : ∀ a, y = .ok a → Avoids f (next a)) : Avoids f (y >>= next) := by
  intro h
  rcases bind_eq_error.mp h with h | ⟨a, ha, h⟩
  · exact hy h
  · exact hnext a ha h

/-- A check avoids every fault but the one it is for (60_exceptions.md R282, R284). -/
theorem avoids_check {p : Prop} [Decidable p] (hf : f ≠ g) : Avoids f (if p then .error g else .ok ()) := by
  split
  · exact fun h => hf (Except.error.inj h).symm
  · exact avoids_ok ()

theorem avoids_forUpTo {step : Nat → State → Except FaultCode State} (hstep : ∀ k s, Avoids f (step k s)) (n : Nat)
    (s : State) : Avoids f (forUpTo step n s) := by
  induction n with
  | zero => exact avoids_ok s
  | succ n ih => exact ih.bind fun t _ => hstep n t

/-! ### Storing cycle values is legal -/

theorem legal_cycleStore (v : Nat) : Avoids .illegalOp (cycleStore v) :=
  fun h => absurd (cycleStore_eq_error.mp h).2 nofun

theorem legal_alarmSet (a t : Nat) (s : State) : Avoids .illegalOp (alarmSet a t s) :=
  fun h => absurd (alarmSet_eq_error.mp h).2 nofun

theorem legal_schedule (ch : Chan) (v : Nat) : Avoids .illegalOp (schedule k x ch v s) :=
  (legal_cycleStore _).bind fun _ _ => legal_alarmSet _ _ _

theorem legal_chanCatchUp (k : Nat) (x : Channel) (c : Cycle) (s : State) :
    Avoids .illegalOp (chanCatchUp k x c s) := by
  unfold chanCatchUp
  dsimp only
  split
  · split
    · exact avoids_ok _
    · exact (legal_cycleStore _).bind fun _ _ => (legal_alarmSet _ _ _).bind fun _ _ => avoids_ok _
  · exact avoids_ok s

theorem legal_writeLatchByte (half : Half) (v : Byte) : Avoids .illegalOp (writeLatchByte k x half v s) := by
  rw [writeLatchByte_eq]
  split
  · exact legal_schedule _ _
  · exact avoids_ok _

theorem legal_controlEffect (v : Byte) : Avoids .illegalOp (controlEffect k x v s) := by
  unfold controlEffect
  split
  · rw [startChannel_eq]
    exact legal_schedule _ _
  · exact avoids_ok _
  · split
    · rw [reloadRunning_eq]
      exact legal_schedule _ _
    · exact avoids_ok s
  · exact avoids_ok _

theorem legal_writeControl (v : Byte) : Avoids .illegalOp (writeControl k x v s) :=
  (legal_controlEffect v).bind fun _ _ => avoids_ok _

theorem legal_chipReset (k : Nat) (c : Cycle) (s : State) : Avoids .illegalOp (chipReset k c s) :=
  (legal_alarmSet _ _ _).bind fun _ _ => avoids_ok _

theorem legal_domainReset (s : State) : Avoids .illegalOp (domainReset s) :=
  avoids_forUpTo (fun k t => legal_chipReset k 0 t) _ _

theorem legal_rearmChannel (k : Nat) (x : Channel) (s : State) : Avoids .illegalOp (rearmChannel k x s) := by
  rw [rearmChannel_eq]
  split
  · exact legal_schedule _ _
  · exact avoids_ok s

theorem legal_restoreFrom (k : Nat) (p : List Byte) (s : State) : Avoids .illegalOp (restoreFrom k p s) :=
  (legal_rearmChannel k .A _).bind fun _ _ => (legal_rearmChannel k .B _).bind fun _ _ =>
    (legal_alarmSet _ _ _).bind fun _ _ => avoids_ok _

/-! ### Reconciliation and dispatch are legal -/

theorem legal_updateTo (k : Nat) (c : Cycle) (s : State) : Avoids .illegalOp (updateTo k c s) := by
  unfold updateTo
  split
  · exact nofun
  · exact (legal_chanCatchUp k .A c s).bind fun t _ => (legal_chanCatchUp k .B c t).bind fun _ _ => avoids_ok _

theorem legal_fire (a overrun : Nat) (s : State) : Avoids .illegalOp (fire a overrun s) := by
  unfold fire
  split
  · split
    · exact legal_alarmSet _ _ _
    · exact legal_updateTo _ _ s
  · exact avoids_ok _

theorem legal_dispatchLoop (fuel n : Nat) (s : State) : Avoids .illegalOp (dispatchLoop fuel n s) := by
  induction fuel generalizing n s with
  | zero =>
    cases hfirst : s.firstDue with
    | none => exact avoids_of_eq_ok (dispatchLoop_none hfirst 0 n)
    | some a =>
      rw [dispatchLoop_zero hfirst]
      exact nofun
  | succ fuel ih =>
    cases hfirst : s.firstDue with
    | none => exact avoids_of_eq_ok (dispatchLoop_none hfirst _ n)
    | some a =>
      rw [dispatchLoop_succ hfirst]
      exact (legal_fire a _ s).bind fun t _ => ih (n + 1) t

/-- A dispatch raises no `IllegalOp` (60_exceptions.md R285). -/
theorem legal_dispatch (s : State) : Avoids .illegalOp (dispatch s) := legal_dispatchLoop _ 0 s

theorem legal_guardRebase (s : State) : Avoids .illegalOp (guardRebase s) := by
  refine Avoids.bind (avoids_forUpTo (fun k s => legal_updateTo k s.clk s) _ s) fun t _ =>
    Avoids.bind ?_ fun _ _ => avoids_ok _
  unfold rebaseAll
  split
  · exact nofun
  · exact avoids_ok _

end

end Sys2Proof.Machine
end

section
/-! How an operation ends (60_exceptions.md R280, R288): `Ends` says of what its body makes of a state that it answers
and leaves the fault state alone, or raises a fault, which is never `IllegalOp` and, where there is room below `NEVER`,
not `ClockOverflow`. One lemma for each shape of a body. -/

namespace Sys2Proof

/-- The guard leaves room for the cycle values this operation stores: every operation but an advance of the counter and
an alarm set by the driver, which store what the driver presents (40_counter_guard.md R104). -/
def Instr.Guarded (i : Instr) : Prop := (∀ n, i ≠ .clkAdvance n) ∧ ∀ a target, i ≠ .alarmSet a target

end Sys2Proof

namespace Sys2Proof.Machine

/-- What an operation that raises no fault answers: STATUS 0, or the recoverable failure of `SNAP_RESTORE`
(30_encoding.md R81; 60_exceptions.md R286). -/
def MayAnswer (i : Instr) (r : Reply) : Prop :=
  r.status = 0 ∨ (∃ k, i = .snapRestore k) ∧ r = .failed snapshotMalformed

/-- How what the body of operation `i` makes of state `s` ends, `room` being what makes every cycle value storable. -/
structure Ends (i : Instr) (room : Prop) (s : State) (x : Result) : Prop where
  completes : ∀ s' r, x = .ok (s', r) → s'.fault = s.fault ∧ MayAnswer i r
  legal : Avoids .illegalOp x
  fits : room → Avoids .clockOverflow x

section
variable {i : Instr} {k : Nat} {room room' : Prop} {s s' : State} {x : Result} {body : State → Result}

/-! ### The shapes of a body -/

/-- A chip that is absent is no selector (60_exceptions.md R282). -/
theorem selectChip_of_absent (h : s.cfg.nchip ≤ k) : selectChip k s = .error .badSelector := if_pos h

theorem Ends.mono (h : Ends i room s x) (hroom : room' → room) : Ends i room' s x :=
  ⟨h.completes, h.legal, h.fits ∘ hroom⟩

theorem ends_answer {r : Reply} (hfault : s'.fault = s.fault) (hr : MayAnswer i r) : Ends i room s (.ok (s', r)) where
  completes := fun _ _ h => by cases h; exact ⟨hfault, hr⟩
  legal := avoids_ok _
  fits := fun _ => avoids_ok _

/-- The body completes with STATUS 0. -/
theorem ends_ok {r : Reply} (hfault : s'.fault = s.fault) (hr : r.status = 0 := by rfl) : Ends i room s (.ok (s', r)) :=
  ends_answer hfault (.inl hr)

/-- A check, then the rest of the body. -/
theorem ends_check {check : Except FaultCode Unit}
    (hcheck : ∀ f, f ≠ .badSelector → f ≠ .schedInconsistency → Avoids f check) (hx : Ends i room s x) :
    Ends i room s (check >>= fun _ => x) where
  completes := fun _ _ h => by
    obtain ⟨-, -, h⟩ := bind_eq_ok.mp h
    exact hx.completes _ _ h
  legal := (hcheck .illegalOp nofun nofun).bind fun _ _ => hx.legal
  fits := fun hroom => (hcheck .clockOverflow nofun nofun).bind fun _ _ => hx.fits hroom

/-- A change that can fault, with nothing returned. -/
theorem ends_effect {y : Except FaultCode State} (hkeeps : ∀ t, y = .ok t → t.fault = s.fault)
    (hlegal : Avoids .illegalOp y) (hfits : room → Avoids .clockOverflow y) :
    Ends i room s (y >>= fun t => .ok (t, .nothing)) where
  completes := fun _ _ h => by
    obtain ⟨t, ht, h⟩ := bind_eq_ok.mp h
    cases h
    exact ⟨hkeeps _ ht, .inl rfl⟩
  legal := hlegal.bind fun _ _ => avoids_ok _
  fits := fun hroom => (hfits hroom).bind fun _ _ => avoids_ok _

theorem ends_error {f : FaultCode} (hlegal : f ≠ .illegalOp) (hfits : f ≠ .clockOverflow) : Ends i room s (.error f) where
  completes := nofun
  legal := fun h => hlegal (Except.error.inj h)
  fits := fun _ h => hfits (Except.error.inj h)

/-- The implicit dispatch of a ready state succeeds, and leaves a ready state with nothing due to the rest
(41_alarm_scheduler.md R130). -/
theorem ends_afterDispatch (hbody : ∀ t, t.cfg = s.cfg → Ends i (t.Ready ∧ t.NoneDue) t (body t)) :
    Ends i s.Ready s (afterDispatch s body) where
  completes := fun _ _ h => by
    obtain ⟨t, n, hdispatch, h⟩ := afterDispatch_eq_ok.mp h
    have hkeeps := (DispatchKeeps.dispatch hdispatch).1
    rw [← hkeeps.fault]
    exact (hbody t hkeeps.cfg).completes _ _ h
  legal := (legal_dispatch s).bind fun p hp => (hbody p.1 (DispatchKeeps.dispatch hp).1.cfg).legal
  fits := fun hready => by
    obtain ⟨t, n, hdispatch, hready', hnone, -⟩ := dispatch_of_ready hready
    rw [afterDispatch_of_ok hdispatch]
    exact (hbody t (DispatchKeeps.dispatch hdispatch).1.cfg).fits ⟨hready', hnone⟩

/-- The selector is checked before the dispatch (60_exceptions.md R287). -/
theorem ends_onChip (hbody : ∀ t, Ends i (k < t.cfg.nchip ∧ t.Ready) t (body t)) :
    Ends i s.Ready s (onChip k s body) := by
  rw [onChip]
  by_cases hk : k < s.cfg.nchip
  case pos =>
    rw [selectChip_ok hk, ok_bind]
    exact ends_afterDispatch fun t hcfg => (hbody t).mono fun h => ⟨hcfg ▸ hk, h.1⟩
  case neg =>
    rw [selectChip_of_absent (Nat.le_of_not_lt hk), error_bind]
    exact ends_error nofun nofun

/-- An access to a chip of a ready state opens in a state that is ready and reconciled
(44_chip_icr_sdr_ports.md R231). -/
theorem ends_accessChip (hbody : ∀ t, Ends i (k < s.cfg.nchip ∧ Opened k s t) t (body t)) :
    Ends i s.Ready s (accessChip k s body) := by
  by_cases hk : k < s.cfg.nchip
  case neg =>
    rw [accessChip, onChip, selectChip_of_absent (Nat.le_of_not_lt hk), error_bind]
    exact ends_error nofun nofun
  case pos =>
    refine ⟨fun _ _ h => ?_, ?_, fun hready => ?_⟩
    · obtain ⟨-, s₁, n, hdispatch, t, hupdate, h⟩ := accessChip_eq_ok.mp h
      rw [← (DispatchKeeps.dispatch hdispatch).1.fault, ← (OnlyChip.updateTo hupdate).fault]
      exact (hbody t).completes _ _ h
    · rw [accessChip, onChip, selectChip_ok hk, ok_bind]
      exact (legal_dispatch s).bind fun p _ => (legal_updateTo k p.1.clk p.1).bind fun t _ => (hbody t).legal
    · obtain ⟨t, hopened⟩ := opened_of_ready hready hk
      rw [hopened.opens.2 body]
      exact (hbody t).fits ⟨hk, hopened⟩

theorem ends_readChip (value : State → Byte) : Ends i s.Ready s (readChip k value s) :=
  ends_accessChip fun _ => ends_ok rfl

theorem ends_writeChip {effect : State → State} (heffect : ∀ t, OnlyChip k t (effect t)) :
    Ends i s.Ready s (writeChip k effect s) :=
  ends_accessChip fun t => ends_ok (heffect t).fault

/-! ### Writes that store a cycle value -/

theorem ends_writeLatchByte (x : Channel) (half : Half) (v : Byte) :
    Ends i s.Ready s (writeChipE k (writeLatchByte k x half v) s) := by
  refine ends_accessChip fun t => ends_effect (fun _ h => (OnlyChip.writeLatchByte h).fault)
    (legal_writeLatchByte half v) fun ⟨hk, hopened⟩ => ?_
  rw [writeLatchByte_eq]
  split
  case isFalse => exact avoids_ok _
  case isTrue hthrough =>
    obtain ⟨hrun, hlive⟩ := hthrough
    rw [hopened.clk, hopened.live] at hlive
    have hfits := hopened.latch_fits hk hrun hlive (latchWith ((t.chip k).chan x).latch half v)
    rw [← hopened.clk] at hfits
    exact avoids_of_eq_ok (schedule_of_lt hfits)

theorem ends_writeControl (x : Channel) (v : Byte) : Ends i s.Ready s (writeChipE k (writeControl k x v) s) := by
  refine ends_accessChip fun t => ends_effect (fun _ h => (OnlyChip.writeControl h).fault)
    (legal_writeControl v) fun ⟨hk, hopened⟩ => ?_
  exact Avoids.bind (avoids_of_eq_ok (hopened.controlEffect hk x v)) fun _ _ => avoids_ok _

theorem ends_chipReset :
    Ends i s.Ready s (onChip k s fun t => chipReset k t.clk t >>= fun t' => .ok (t', .nothing)) := by
  refine ends_onChip fun t => ends_effect (fun _ h => (chipReset_onlyChip h).1.fault) (legal_chipReset k t.clk t)
    fun ⟨_, hready⟩ => ?_
  have hroom := hready.headroom
  obtain ⟨u, hu⟩ := chipReset_total (k := k) (c := t.clk) (s := t) (by omega)
  exact avoids_of_eq_ok hu

/-- A reconciliation at a cycle that has come finds room for the next underflow, or faults for coming too late
(43_chip_timers.md R200). -/
theorem avoids_clockOverflow_updateTo {c : Cycle} (h : c.toNat + 65536 < neverNat) :
    Avoids .clockOverflow (updateTo k c s) := by
  by_cases hrc : (s.chip k).rc ≤ c
  case pos =>
    obtain ⟨t, ht⟩ := updateTo_total hrc h
    exact avoids_of_eq_ok ht
  case neg =>
    rw [updateTo, if_pos (by simpa using hrc)]
    exact nofun

theorem ends_chipUpdate (c : Cycle) : Ends i s.Ready s (onChip k s fun t =>
    cycleNotFuture c t >>= fun _ => updateTo k c t >>= fun t' => .ok (t', .nothing)) := by
  refine ends_onChip fun t => ?_
  by_cases hc : c ≤ t.clk
  case neg =>
    rw [cycleNotFuture_of_lt (by simpa using hc), error_bind]
    exact ends_error nofun nofun
  case pos =>
    refine ends_check (fun _ _ hf => avoids_check hf) (ends_effect (fun _ h => (OnlyChip.updateTo h).fault)
      (legal_updateTo k c t) fun ⟨_, hready⟩ => avoids_clockOverflow_updateTo ?_)
    have hle := BitVec.le_def.mp hc
    have hroom := hready.room
    omega

/-! ### The scheduler, the lines and the guard -/

theorem ends_dispatch : Ends i s.Ready s (dispatch s >>= fun p => .ok (p.1, .value (countWord p.2))) where
  completes := fun _ _ h => by
    obtain ⟨p, hdispatch, h⟩ := bind_eq_ok.mp h
    cases h
    exact ⟨(DispatchKeeps.dispatch hdispatch).1.fault, .inl rfl⟩
  legal := (legal_dispatch s).bind fun _ _ => avoids_ok _
  fits := fun hready => by
    obtain ⟨t, n, hdispatch, -⟩ := dispatch_of_ready hready
    exact Avoids.bind (avoids_of_eq_ok hdispatch) fun _ _ => avoids_ok _

theorem ends_setSourceOp (n : Nat) (b : Bool) (e : Cycle) : Ends i s.Ready s (setSourceOp n b e s) :=
  ends_check (fun _ hf _ => avoids_check hf) (ends_afterDispatch fun t _ =>
    ends_check (fun _ _ hf => avoids_check hf) (ends_ok (OnlyChip.aggSet n b e t).fault))

theorem fault_guardRebase {r : Reply} (h : guardRebase s = .ok (s', r)) : s'.fault = s.fault ∧ r.status = 0 := by
  obtain ⟨s₁, hreconcile, h⟩ := bind_eq_ok.mp h
  obtain ⟨s₂, hrebase, h⟩ := bind_eq_ok.mp h
  cases h
  obtain ⟨-, rfl⟩ := rebaseAll_eq_ok.mp hrebase
  have hfault : s₁.fault = s.fault :=
    forUpTo_keeps (P := fun t => t.fault = s.fault) (fun _ _ _ ht h => (OnlyChip.updateTo h).fault.trans ht) rfl
      hreconcile
  exact ⟨hfault, rfl⟩

theorem ends_guardTick : Ends i s.Ready s (afterDispatch s fun t =>
    if t.clk.toNat > t.cfg.highWater then guardRebase t else .ok (t, .nothing)) := by
  refine ends_afterDispatch fun t _ => ?_
  split
  case isFalse => exact ends_ok rfl
  case isTrue =>
    exact ⟨fun _ _ h => (fault_guardRebase h).imp_right .inl, legal_guardRebase t,
      fun ⟨hready, hnone⟩ => avoids_of_eq_ok (guardRebase_of_noneDue hready hnone rfl)⟩

/-! ### Domain reset and restore -/

/-- A domain reset completes for every well-formed configuration, out of the fault state (70_reset_and_hazards.md
R310). -/
theorem ends_domainReset (hfault : s.fault = none) :
    Ends i s.Ready s ((domainReset s).map fun t => (t, .nothing)) := by
  have hmap : (domainReset s).map (fun t => (t, Reply.nothing)) = domainReset s >>= fun t => .ok (t, .nothing) := by
    cases domainReset s <;> rfl
  rw [hmap]
  refine ends_effect (fun t h => ?_) (legal_domainReset s) fun hready => ?_
  · rw [hfault]
    exact forUpTo_keeps (P := fun t => t.fault = none) (fun _ _ _ ht h => (chipReset_onlyChip h).1.fault.trans ht) rfl h
  · obtain ⟨t, ht, -⟩ := domainReset_total hready.inv.cfg_wf.todPeriod_lt
    exact avoids_of_eq_ok ht

/-- A restore fails recoverably where its payload is malformed, and otherwise loads it (46_snapshot.md R266, R267). -/
theorem ends_snapRestore : Ends (.snapRestore k) s.Ready s (onChip k s fun t =>
    if malformed t.payloadIn t then .ok (t, .failed snapshotMalformed)
    else restoreFrom k t.payloadIn t >>= fun t' => .ok (t', .nothing)) := by
  refine ends_onChip fun t => ?_
  split
  case isTrue => exact ends_answer rfl (.inr ⟨⟨k, rfl⟩, rfl⟩)
  case isFalse hformed =>
    refine ends_effect (fun _ h => (OnlyChip.restoreFrom h).fault) (legal_restoreFrom k _ t) fun ⟨hk, hready⟩ => ?_
    have htick : t.clk.toNat + tickDelta t.payloadIn < neverNat :=
      Nat.lt_of_not_le fun h => hformed ((malformed_iff _ _).mpr (.inr h))
    exact avoids_of_eq_ok
      (restoreFrom_of_room (hready.inv.chip_lt hk) (hready.inv.slotOf_lt hk) hready.room htick)

end

end Sys2Proof.Machine
end

section
/-! The ends of an operation (60_exceptions.md R280, R283, R285, R288): one account for all operations in `exec_cases`, of
which the three statements are readings. -/

namespace Sys2Proof.Machine

section
variable {i : Instr} {s t : State}

/-! ### Operations -/

/-- The outcome `o` of operation `i` in state `s` is the end of a body that ends well (60_exceptions.md R280). -/
def OutcomeEnds (i : Instr) (s : State) (o : Host.Outcome State Fault Refusal) : Prop :=
  ∃ x, o = .next (conclude s x) ∧ Ends i (s.Ready ∧ i.Guarded) s x

/-- The body of a guarded operation needs a ready state alone. -/
theorem outcomeEnds_perform {body : State → Result} (hfault : s.fault = none) (hbody : Ends i s.Ready s (body s)) :
    OutcomeEnds i s (perform s body) :=
  ⟨body s, perform_of_none hfault body, hbody.mono And.left⟩

/-- With the annex present a snapshot operation runs like any other (30_encoding.md R87). -/
theorem outcomeEnds_snapshot {body : State → Result} (hfault : s.fault = none) (hpresent : s.cfg.hasSnapshot = true)
    (hbody : Ends i s.Ready s (body s)) : OutcomeEnds i s (perform s fun s => snapshotPresent s >>= fun _ => body s) := by
  rw [perform_snapshotPresent hpresent]
  exact outcomeEnds_perform hfault hbody

/-- An advance of the counter stores what the driver presents (40_counter_guard.md R100). -/
theorem outcomeEnds_clkAdvance (hfault : s.fault = none) (n : BitVec 32) :
    OutcomeEnds (.clkAdvance n) s (execClkAdvance n s) := by
  refine ⟨_, perform_of_none hfault _, fun _ _ h => ?_, (legal_cycleStore _).bind fun _ _ => avoids_ok _,
    fun ⟨_, hguarded⟩ => absurd rfl (hguarded.1 n)⟩
  obtain ⟨c, -, h⟩ := bind_eq_ok.mp h
  cases h
  exact ⟨rfl, .inl rfl⟩

/-- So does an alarm set by the driver (41_alarm_scheduler.md R122). -/
theorem outcomeEnds_alarmSet (hfault : s.fault = none) (a : Nat) (target : Cycle) :
    OutcomeEnds (.alarmSet a target) s (execAlarmSet a target s) := by
  refine ⟨_, perform_of_none hfault _, ends_check (fun _ hf _ => avoids_check hf)
    (ends_effect (fun t h => ?_) (legal_alarmSet _ _ s) fun ⟨_, hguarded⟩ => absurd rfl (hguarded.2 a target))⟩
  obtain ⟨-, rfl⟩ := alarmSet_eq_ok.mp h
  rfl

/-- Every operation whose opcode is present ends as its body does (60_exceptions.md R288). -/
theorem exec_ends (hfault : s.fault = none) (hpresent : i.isSnapshot = true → s.cfg.hasSnapshot = true) :
    OutcomeEnds i s (exec i s) := by
  cases i <;> dsimp only [exec]
  case domainReset => exact ⟨_, rfl, (ends_domainReset hfault).mono And.left⟩
  case clkAdvance n => exact outcomeEnds_clkAdvance hfault n
  case alarmSet a target => exact outcomeEnds_alarmSet hfault a target
  case snapSave k =>
    refine outcomeEnds_snapshot hfault (hpresent rfl) ?_
    exact ends_accessChip fun _ => ends_ok rfl
  case snapRestore k =>
    refine outcomeEnds_snapshot hfault (hpresent rfl) ?_
    exact ends_snapRestore
  all_goals refine outcomeEnds_perform hfault ?_
  case clkRead | alarmNext => exact ends_ok rfl
  case alarmUnset | alarmRead => exact ends_check (fun _ hf _ => avoids_check hf) (ends_ok rfl)
  case guardTick => exact ends_guardTick
  case dispatch => exact ends_dispatch
  case irqAssert n e | irqDeassert n e => exact ends_setSourceOp n _ e
  case irqQuery => exact ends_afterDispatch fun _ _ => ends_check (fun _ _ hf => avoids_check hf) (ends_ok rfl)
  case irqCpumask | irqStamp => exact ends_afterDispatch fun _ _ => ends_ok rfl
  case chipReset => exact ends_chipReset
  case chipReadPra | chipReadPrb | chipReadDdra | chipReadDdrb | chipReadTalo | chipReadTahi | chipReadTblo
      | chipReadTbhi | chipReadSdr | chipReadCra | chipReadCrb | chipPeek | portOut =>
    exact ends_readChip _
  case chipReadTod10 | chipReadTodsec | chipReadTodmin | chipReadTodhr => exact ends_accessChip fun _ => ends_ok rfl
  case chipReadIcr k => exact ends_accessChip fun t => ends_ok (OnlyChip.setChip_updateLine k _ _ t).fault
  case chipWritePra k v | chipWritePrb k v | chipWriteDdra k v | chipWriteDdrb k v | chipWriteSdr k v =>
    exact ends_writeChip fun t => OnlyChip.setChip k _ t
  case chipWriteTalo k v | chipWriteTahi k v | chipWriteTblo k v | chipWriteTbhi k v => exact ends_writeLatchByte _ _ v
  case chipWriteTod10 k v | chipWriteTodsec k v | chipWriteTodmin k v | chipWriteTodhr k v =>
    exact ends_writeChip fun t => OnlyChip.todWrite k _ v t
  case chipWriteIcr k v => exact ends_writeChip fun t => OnlyChip.setChip_updateLine k _ _ t
  case chipWriteCra k v | chipWriteCrb k v => exact ends_writeControl _ v
  case chipUpdate k c => exact ends_chipUpdate c
  case portIn k p v => exact ends_onChip fun t => ends_ok (OnlyChip.setPortIn k p v t).fault
  case extPulse k =>
    exact ends_writeChip fun t => (OnlyChip.pulseChannel k .A t).trans (OnlyChip.pulseChannel k .B _)

/-- Without the annex its two opcodes are illegal (30_encoding.md R87). -/
theorem exec_snapshot_of_absent (hfault : s.fault = none) (habsent : s.cfg.hasSnapshot = false)
    (hi : i.isSnapshot = true) : exec i s = .next (takeFault .illegalOp s) := by
  have herror : snapshotPresent s = .error .illegalOp := if_neg (by rw [habsent]; exact Bool.false_ne_true)
  cases i <;> cases hi
  case snapSave k =>
    change execSnapSave k s = _
    rw [execSnapSave, perform_of_none hfault, herror, error_bind, conclude_error]
  case snapRestore k =>
    change execSnapRestore k s = _
    rw [execSnapRestore, perform_of_none hfault, herror, error_bind, conclude_error]

/-- The faults that operation `i` may raise in state `s` (60_exceptions.md R283, R285). -/
structure MayRaise (i : Instr) (s : State) (f : FaultCode) : Prop where
  illegalOp : f = .illegalOp → i.isSnapshot = true ∧ s.cfg.hasSnapshot = false
  clockOverflow : f = .clockOverflow → ¬(s.Ready ∧ i.Guarded)

/-- Outside the fault state every operation answers without a fault, or raises one (60_exceptions.md R280, R288). -/
theorem exec_cases (i : Instr) (hfault : s.fault = none) :
    (∃ (u : State) (r : Reply), exec i s = .next (u.answer r) ∧ u.fault = none ∧ MayAnswer i r) ∨
    (∃ f, exec i s = .next (takeFault f s) ∧ MayRaise i s f) := by
  by_cases habsent : i.isSnapshot = true ∧ s.cfg.hasSnapshot = false
  case pos => exact .inr ⟨.illegalOp, exec_snapshot_of_absent hfault habsent.2 habsent.1, fun _ => habsent, nofun⟩
  case neg =>
    obtain ⟨x, hexec, hends⟩ := exec_ends hfault fun hi => by
      cases hhas : s.cfg.hasSnapshot with
      | true => rfl
      | false => exact absurd ⟨hi, hhas⟩ habsent
    cases x with
    | ok p =>
      obtain ⟨hkept, hr⟩ := hends.completes p.1 p.2 rfl
      exact .inl ⟨p.1, p.2, hexec, hkept.trans hfault, hr⟩
    | error f =>
      exact .inr ⟨f, hexec, fun hf => absurd (congrArg _ hf) hends.legal, fun hf hroom =>
        hends.fits hroom (congrArg _ hf)⟩

/-- A fault that is set after an operation is one that the operation may raise. -/
theorem mayRaise_of_fault {f : FaultCode} (hfault : s.fault = none) (h : exec i s = .next t) (hset : t.fault = some f) :
    MayRaise i s f := by
  rcases exec_cases i hfault with ⟨u, r, hexec, hnone, -⟩ | ⟨g, hexec, hraise⟩
  · cases hexec.symm.trans h
    cases hnone.symm.trans hset
  · cases hexec.symm.trans h
    cases hset
    exact hraise

/-! ### Words -/

theorem decode_of_not_mem {w : CmdWord} (h : (opField w).toNat ∉ opcodes) :
    decode w = .error (.illegalOp (opField w)) := by
  unfold decode
  split
  case h_25 => rfl
  all_goals
    rename_i hop
    rw [hop] at h
    exact absurd (by decide) h

theorem not_mem_of_decode_error {w : CmdWord} {e : DecodeError} (h : decode w = .error e) :
    (opField w).toNat ∉ opcodes := by
  unfold decode at h
  split at h <;> cases h
  simp_all [opcodes]

/-- Every step takes the machine to a next state (60_exceptions.md R288). -/
theorem step_total (s : State) : ∃ t, step s = .next t := by
  have hperform (u : State) (body : State → Result) : ∃ t, perform u body = .next t := by
    cases hfault : u.fault with
    | some f => exact ⟨_, perform_of_fault hfault body⟩
    | none => exact ⟨_, perform_of_none hfault body⟩
  cases hport : s.port with
  | nil => exact ⟨s, step_of_port_nil hport⟩
  | cons p rest =>
    cases hdecode : decode p.word with
    | error e =>
      rw [step_of_decode_error hport hdecode]
      exact hperform _ _
    | ok i =>
      rw [step_of_decode_ok hport hdecode]
      by_cases hi : i = .domainReset
      case pos => exact hi ▸ ⟨_, rfl⟩
      case neg =>
        obtain ⟨body, hbody⟩ := exec_eq_perform hi
        rw [hbody]
        exact hperform _ _

end

/-! ### The statements -/

/-- Settles O7: the ends are those of `exec_cases`, and a step runs an operation, refuses a word or idles. -/
theorem everyOperationEnds : Obligations.EveryOperationEnds := by
  unfold Obligations.EveryOperationEnds
  refine ⟨fun i s hfault => ?_, step_total⟩
  rcases exec_cases i hfault with ⟨u, r, hexec, hnone, hstatus | ⟨hrestore, rfl⟩⟩ | ⟨f, hexec, -⟩
  · exact ⟨_, hexec, .inl ⟨hstatus, hnone⟩⟩
  · exact ⟨_, hexec, .inr (.inr ⟨hrestore, rfl, rfl, hnone⟩)⟩
  · exact ⟨_, hexec, .inr (.inl ⟨f, rfl⟩)⟩

/-- Settles O5: an opcode outside the table is the decoder's one error, and no operation raises `IllegalOp` but those of
the absent annex. -/
theorem illegalOpcodesAlone : Obligations.IllegalOpcodesAlone := by
  unfold Obligations.IllegalOpcodesAlone
  refine ⟨fun w => ⟨fun ⟨_, h⟩ => not_mem_of_decode_error h, fun h => ⟨_, decode_of_not_mem h⟩⟩,
    fun s p rest hfault hport hop => ?_, fun s k hfault habsent => ?_, fun s t i hfault h hset => ?_⟩
  · rw [step_of_decode_error hport (decode_of_not_mem hop), illegalWord, perform_of_none (by exact hfault)]
    rfl
  · exact ⟨exec_snapshot_of_absent hfault habsent rfl, exec_snapshot_of_absent hfault habsent rfl⟩
  · exact (mayRaise_of_fault hfault h hset).illegalOp rfl

/-- Settles O9: where there is room, `ClockOverflow` is not among the faults of a guarded operation. -/
theorem noOverflowWithHeadroom : Obligations.NoOverflowWithHeadroom := by
  unfold Obligations.NoOverflowWithHeadroom
  intro s t i hready hadvance hset h hoverflow
  exact (mayRaise_of_fault hready.no_fault h hoverflow).clockOverflow rfl ⟨hready, hadvance, hset⟩

end Sys2Proof.Machine
end

section
/-! Selectors that name nothing, or what a chip owns (60_exceptions.md R282): the check comes before the dispatch, so that
the fault finds the state as it was presented. -/

namespace Sys2Proof.Machine

section
variable {i : Instr} {k n : Nat} {s : State}

/-- A body whose first check fails faults before the rest of it runs (60_exceptions.md R287). -/
theorem faultsWith_of_error {f : FaultCode} {body : State → Result} (hfault : s.fault = none) (h : body s = .error f) :
    FaultsWith f s (perform s body) := by
  rw [FaultsWith, perform_of_none hfault, h, conclude_error]

theorem onChip_of_absent (hk : s.cfg.nchip ≤ k) (body : State → Result) : onChip k s body = .error .badSelector := by
  rw [onChip, selectChip_of_absent hk, error_bind]

theorem setSourceOp_of_not_external (h : s.cfg.nSources ≤ n ∨ n < s.cfg.nchip) (b : Bool) (e : Cycle) :
    setSourceOp n b e s = .error .badSelector := by
  rw [setSourceOp, selectExternalSource, if_pos h, error_bind]

/-- Every operation on a chip selects it before all else but the check for the annex (60_exceptions.md R287). -/
theorem exec_eq_onChip (hi : i.chipOperand = some k) (hpresent : i.isSnapshot = true → s.cfg.hasSnapshot = true) :
    ∃ body : State → Result, exec i s = perform s fun s => onChip k s body := by
  cases i <;> cases hi
  case snapSave =>
    change ∃ body : State → Result, execSnapSave k s = perform s fun s => onChip k s body
    rw [execSnapSave, perform_snapshotPresent (hpresent rfl)]
    exact ⟨_, rfl⟩
  case snapRestore =>
    change ∃ body : State → Result, execSnapRestore k s = perform s fun s => onChip k s body
    rw [execSnapRestore, perform_snapshotPresent (hpresent rfl)]
    exact ⟨_, rfl⟩
  all_goals exact ⟨_, rfl⟩

theorem exec_of_absent_chip (hfault : s.fault = none) (hi : i.chipOperand = some k) (hk : s.cfg.nchip ≤ k)
    (hpresent : i.isSnapshot = true → s.cfg.hasSnapshot = true) : FaultsWith .badSelector s (exec i s) := by
  obtain ⟨body, hbody⟩ := exec_eq_onChip hi hpresent
  rw [hbody]
  exact faultsWith_of_error hfault (onChip_of_absent hk body)

end

/-- Settles O8: each selector check is the first thing its operations do. -/
theorem badSelectorsFault : Obligations.BadSelectorsFault := by
  unfold Obligations.BadSelectorsFault
  intro s hfault
  refine ⟨fun i k hi hk hpresent => exec_of_absent_chip hfault hi hk hpresent,
    fun a ha => exec_alarmRead_of_absent hfault ha,
    fun a target ha => ⟨exec_alarmSet_of_not_external hfault ha, exec_alarmUnset_of_not_external hfault ha⟩,
    fun n e hn => ⟨?_, ?_⟩⟩
  · exact faultsWith_of_error hfault (setSourceOp_of_not_external hn true e)
  · exact faultsWith_of_error hfault (setSourceOp_of_not_external hn false e)

end Sys2Proof.Machine
end

section
/-! The resets as whole states (70_reset_and_hazards.md R310 to R313): a chip reset is one assignment to the chip, one to
each of its slots and one to its source bit, and a domain reset makes the cleared tables into those of the reset state
one chip at a time. -/

namespace Sys2Proof.Machine

section
variable {k n : Nat} {c : Cycle} {s : State}

/-! ### Chip reset -/

/-- The state after the assignments of a chip reset at cycle `c` (70_reset_and_hazards.md R312). -/
def chipCleared (k : Nat) (c : Cycle) (s : State) : State :=
  { s with
    chips := s.chips.set k (Chip.blank (Config.freeLatch s.draws) (Config.freeLatch (s.draws + 1)) c)
    alarms := ((s.alarms.set (slotOf k .A) ⟨false, never⟩).set (slotOf k .B) ⟨false, never⟩).set (todSlot k)
      ⟨true, BitVec.ofNat 32 (c.toNat + s.cfg.todPeriod)⟩
    src := s.src.set k false
    draws := s.draws + 2 }

/-- The source of a chip that is reset falls, which is no edge (42_interrupt_aggregator.md R143). -/
theorem chipReset_of_lt (hsrc : k < s.src.length) (htick : c.toNat + s.cfg.todPeriod < neverNat) :
    chipReset k c s = .ok (chipCleared k c s) := by
  rw [chipReset_eq, alarmSet_ok htick, ok_bind, aggSet, State.rises_false (by exact hsrc)]
  rfl

/-! ### Domain reset -/

/-- Slot `a` while a domain reset is under way, the ticks of the first `n` chips armed (70_reset_and_hazards.md R310). -/
def slotReset (cfg : Config) (n a : Nat) : Alarm :=
  if a < 3 * n ∧ a % 3 = 2 then ⟨true, BitVec.ofNat 32 cfg.todPeriod⟩ else ⟨false, never⟩

/-- Chip `k` while a domain reset is under way, the first `n` chips reset (70_reset_and_hazards.md R310, R313). -/
def chipResetBelow (draws n k : Nat) : Chip :=
  if k < n then Chip.atReset (Config.freeLatch (draws + 2 * k)) (Config.freeLatch (draws + (2 * k + 1))) else Chip.absent

/-- The state while a domain reset is under way, the first `n` chips reset (70_reset_and_hazards.md R310). -/
def resetBelow (n : Nat) (s : State) : State :=
  { s with
    fault := none
    clk := 0
    alarms := (List.range s.cfg.nAlarms).map (slotReset s.cfg n)
    src := List.replicate s.cfg.nSources false
    lineClkMaskable := 0
    lineClkUrgent := 0
    cpuMasked := false
    chips := (List.range s.cfg.nchip).map (chipResetBelow s.draws n)
    draws := s.draws + 2 * n }

/-- A table that is a function of the index, one entry replaced. -/
theorem set_map_range {α : Type} (f g : Nat → α) (m i : Nat) (hother : ∀ j, j ≠ i → f j = g j) :
    ((List.range m).map f).set i (g i) = (List.range m).map g := by
  apply List.ext_getElem
  · simp
  · intro j hj hj'
    by_cases hji : j = i
    · subst hji
      simp
    · simp [List.getElem_set_ne (Ne.symm hji), hother j hji]

/-- A table whose entries are all the same. -/
theorem map_range_eq_replicate {α : Type} {f : Nat → α} {d : α} (m : Nat) (h : ∀ j, f j = d) :
    (List.range m).map f = List.replicate m d := by
  rw [List.map_eq_replicate_iff.mpr fun j _ => h j, List.length_range]

theorem slotReset_slotOf (cfg : Config) (n k : Nat) (x : Channel) : slotReset cfg n (slotOf k x) = ⟨false, never⟩ :=
  if_neg fun h => by cases x <;> simp only [slotOf] at h <;> omega

/-- The reset of the next chip leaves its two channels' slots disarmed and arms its tick. -/
theorem set_slotReset (cfg : Config) (n m : Nat) :
    ((((List.range m).map (slotReset cfg n)).set (slotOf n .A) ⟨false, never⟩).set (slotOf n .B) ⟨false, never⟩).set
        (todSlot n) ⟨true, BitVec.ofNat 32 cfg.todPeriod⟩ =
      (List.range m).map (slotReset cfg (n + 1)) := by
  have hA := set_map_range (slotReset cfg n) (slotReset cfg n) m (slotOf n .A) fun _ _ => rfl
  have hB := set_map_range (slotReset cfg n) (slotReset cfg n) m (slotOf n .B) fun _ _ => rfl
  have hself : slotReset cfg (n + 1) (todSlot n) = ⟨true, BitVec.ofNat 32 cfg.todPeriod⟩ :=
    if_pos (by unfold todSlot; omega)
  have hT := set_map_range (slotReset cfg n) (slotReset cfg (n + 1)) m (todSlot n) fun a ha => by
    have hiff : (a < 3 * n ∧ a % 3 = 2) ↔ (a < 3 * (n + 1) ∧ a % 3 = 2) := by
      unfold todSlot at ha
      omega
    simp only [slotReset, hiff]
  rw [slotReset_slotOf] at hA hB
  rw [hself] at hT
  rw [hA, hB, hT]

theorem set_chipResetBelow (draws n m : Nat) :
    ((List.range m).map (chipResetBelow draws n)).set n
        (Chip.blank (Config.freeLatch (draws + 2 * n)) (Config.freeLatch (draws + 2 * n + 1)) 0) =
      (List.range m).map (chipResetBelow draws (n + 1)) := by
  have hself : chipResetBelow draws (n + 1) n =
      Chip.blank (Config.freeLatch (draws + 2 * n)) (Config.freeLatch (draws + 2 * n + 1)) 0 :=
    if_pos (Nat.lt_succ_self n)
  rw [← hself]
  refine set_map_range _ _ m n fun j hj => ?_
  have hiff : j < n ↔ j < n + 1 := by omega
  simp only [chipResetBelow, hiff]

/-- The reset of the next chip (70_reset_and_hazards.md R310, R312). -/
theorem chipReset_resetBelow (hwf : s.cfg.Wf) (hn : n < s.cfg.nchip) :
    chipReset n 0 (resetBelow n s) = .ok (resetBelow (n + 1) s) := by
  have hsources := hwf.sources_ge
  have hzero : (0 : Cycle).toNat + s.cfg.todPeriod = s.cfg.todPeriod := Nat.zero_add _
  have hsrc : n < (resetBelow n s).src.length := by
    rw [show (resetBelow n s).src = List.replicate s.cfg.nSources false from rfl, List.length_replicate]
    omega
  rw [chipReset_of_lt hsrc (by rw [show (resetBelow n s).cfg = s.cfg from rfl, hzero]; exact hwf.todPeriod_lt)]
  unfold chipCleared resetBelow
  dsimp only
  rw [hzero, set_slotReset, set_chipResetBelow, List.set_replicate_self]
  rfl

theorem domainReset_eq (hwf : s.cfg.Wf) : domainReset s = .ok (resetBelow s.cfg.nchip s) := by
  have hstart : domainReset s = forUpTo (fun k => chipReset k 0) s.cfg.nchip (resetBelow 0 s) := by
    have halarms : (List.range s.cfg.nAlarms).map (slotReset s.cfg 0) = List.replicate s.cfg.nAlarms ⟨false, never⟩ :=
      map_range_eq_replicate _ fun a => if_neg (by omega)
    have hchips : (List.range s.cfg.nchip).map (chipResetBelow s.draws 0) = List.replicate s.cfg.nchip Chip.absent :=
      map_range_eq_replicate _ fun k => if_neg (Nat.not_lt_zero k)
    unfold domainReset resetBelow
    rw [halarms, hchips]
    rfl
  have hloop (m : Nat) (hm : m ≤ s.cfg.nchip) :
      forUpTo (fun k => chipReset k 0) m (resetBelow 0 s) = .ok (resetBelow m s) := by
    induction m with
    | zero => rfl
    | succ m ih => exact forUpTo_succ_eq_ok.mpr ⟨_, ih (by omega), chipReset_resetBelow hwf hm⟩
  exact hstart.trans (hloop _ (Nat.le_refl _))

/-- With every chip reset the tables are those of the reset state (70_reset_and_hazards.md R310). -/
theorem answer_resetBelow (s : State) :
    (resetBelow s.cfg.nchip s).answer .nothing =
      { State.resetOf s.cfg (fun j => Config.freeLatch (s.draws + j)) with
        port := s.port, payloadIn := s.payloadIn, events := s.events, draws := s.draws + 2 * s.cfg.nchip } := by
  have hchips : (List.range s.cfg.nchip).map (chipResetBelow s.draws s.cfg.nchip) =
      (State.resetOf s.cfg fun j => Config.freeLatch (s.draws + j)).chips :=
    List.map_congr_left fun k hk => if_pos (List.mem_range.mp hk)
  unfold resetBelow
  rw [hchips]
  rfl

end

/-! ### The statements -/

/-- Settles O10: the loop over the chips ends in `resetBelow` of them all, which is the reset state. -/
theorem domainResetFromAnyState : Obligations.DomainResetFromAnyState := by
  unfold Obligations.DomainResetFromAnyState
  intro s hwf
  rw [exec_domainReset (domainReset_eq hwf), answer_resetBelow]

/-- Settles O11: the dispatch leaves a ready state, in which the reset is `chipCleared`. -/
theorem chipResetResets : Obligations.ChipResetResets := by
  unfold Obligations.ChipResetResets
  intro s k hready hk
  obtain ⟨s₁, n, hdispatch, hready₁, -⟩ := dispatch_of_ready hready
  have hcfg := (DispatchKeeps.dispatch hdispatch).1.cfg
  have hsrc := (hready₁.inv.tracked (hcfg ▸ hk)).src_lt
  have hroom := hready₁.headroom
  have hreset := chipReset_of_lt (c := s₁.clk) hsrc (by omega)
  refine ⟨s₁, ⟨n, hdispatch⟩, ?_⟩
  have hexec : exec (.chipReset k) s = .next (conclude s (chipReset k s₁.clk s₁ >>= fun t => .ok (t, .nothing))) :=
    perform_onChip hready.no_fault hk hdispatch fun t => chipReset k t.clk t >>= fun t' => .ok (t', .nothing)
  rw [hexec, hreset, ok_bind, conclude_ok, chipCleared, hcfg]
  rfl

end Sys2Proof.Machine
end
